-- ==== Sys2Proof/Word.lean ====
section
/-! DEFINITION. The two word types of the block: the byte and the 16-bit word of R8 and R9. -/

namespace Sys2Proof

/-- A byte, the spec's `u8` (R9). Bit 7 is the most significant (R10). -/
abbrev Byte := BitVec 8

/-- A 16-bit unsigned integer, the spec's `u16` (R8). -/
abbrev Word := BitVec 16

end Sys2Proof
end

