-- ==== Sys2Proof/Machine/Kind.lean ====
section
/-! DEFINITION. The classifier's outcomes (R13). -/

namespace Sys2Proof.Machine

/-- The classifier's outcomes (R13, R62). -/
inductive Kind where
  | empty
  | touch0
  | touch1
  | touch2
  | button
  | invalid (len : Word)
deriving DecidableEq, Repr, Inhabited

end Sys2Proof.Machine
end

