-- ==== Sys2Proof/Config.lean ====
section
/-! DEFINITION. What R7 fixes for this block; the three parameters R7 marks OPEN; and the free values. The last two are opaque constants with
no body, so that what is proved holds for every choice of them: the parameters of one machine, and values applied to the counter
`freeIdx` of State. -/

namespace Sys2Proof.Config

open Sys2Proof.Machine

/-- `DEV_ADDR` (R7, R48): the integer the block presents. How the transport places it on the wire is `addrFormat`. -/
def devAddr : Nat := 0x24

/-- `LEN_PREFIX_BYTES` (R7). -/
def lenPrefixBytes : Nat := 2

/-- `SENTINEL_LEN` (R7). -/
def sentinelLen : Word := 2

/-- `REPORT_BYTES` (R7). -/
def reportBytes : Nat := 7

/-- `RECORD_BYTES` (R7). -/
def recordBytes : Nat := 10

/-- `BUTTON_BYTES` (R7). -/
def buttonBytes : Nat := 14

/-- `HANDSHAKE_ATTEMPTS` (R7). -/
def handshakeAttempts : Nat := 5

/-- `FRAME_BUF_BYTES` (R7, D11). -/
abbrev frameBufBytes : Nat := 27

/-! ## The open parameters -/

/-- `ADDR_FORMAT` (R7, R48, D17; log 16): the bytes with which the transport addresses a device, from the integer the block presents. Not
fixed: nothing says that it is a 7-bit address, nor how it is shifted. -/
opaque addrFormat : Nat → List Byte

/-- `E_BUS` (R7, D24; log 15): which codes, beside 0, are error information of the transport. -/
opaque eBusCode : Nat → Bool

/-- `E_IO` (R7, D24; log 15): which codes, beside 0, are error information of the signal port. -/
opaque eIoCode : Nat → Bool

/-! ## The free values -/

/-- The value of `attempt` after a reset input (R32: unspecified), less 1: the bound 1 to 5 of R20 is kept (log 6). -/
opaque freeAttempt : Nat → Fin 5

/-- The value of `len_latch` after a reset input (R32: unspecified; log 6). -/
opaque freeWord : Nat → Word

/-- The value of `kind_latch` after a reset input (R32: unspecified; log 6). -/
opaque freeKind : Nat → Kind

/-- The value of `frame_cnt` after a reset input (R32: unspecified; log 6). -/
opaque freeCount : Nat → Nat

/-- A byte of `frame_buf` that no rule gives a value: all of them after a reset input (R32; log 6), those at index n and above
after a frame read of n bytes (R54; log 7). -/
opaque freeByte : Nat → Byte

end Sys2Proof.Config
end

