-- ==== Sys2Proof/Machine/Values.lean ====
section
/-! DEFINITION. The value types of R12 and R13, the phases of R27, and what crosses the block's three
interfaces (R3, R14): requests, responses, answers and the outside world's moves. -/

namespace Sys2Proof.Machine

/-- The session states of R21. -/
inductive SessionState where
  /-- No successful handshake has happened since reset. -/
  | uninitialized
  /-- A handshake has seen the sentinel length 2. -/
  | ready
  /-- A handshake exhausted its five attempts without seeing 2. -/
  | faulted
deriving DecidableEq, Repr, Inhabited

/-- The phases of R27: which answer the sequencer is waiting for. -/
inductive Phase where
  | idle
  | openLen
  | querySig
  | readSig
  | readLen
  | readFrame
deriving DecidableEq, Repr, Inhabited

/-- TouchReport (R12, R63). Padding is no member (D13). -/
structure TouchReport where
  dataLen : Word
  reportId : Byte
  timestamp : Word
  largeObject : BitVec 1
  recordNum : BitVec 5
  reportCounter : BitVec 2
  noiseEffect : BitVec 3
deriving DecidableEq, Repr

/-- TouchRecord (R12, R64). -/
structure TouchRecord where
  touchType : BitVec 3
  tip : BitVec 1
  eventId : BitVec 2
  touchId : BitVec 5
  x : Word
  y : Word
  pressure : Byte
  majorAxisLength : Word
  orientation : Byte
deriving DecidableEq, Repr

/-- ButtonRecord (R12, R65). -/
structure ButtonRecord where
  length : Word
  reportId : Byte
  timestamp : Word
  btnVal : Byte
  btnSignal : Vector Word 4
deriving DecidableEq, Repr

/-- Event (R12): "the only externally observed decoded artifact". -/
inductive Event where
  | touch (report : TouchReport) (record0 record1 : Option TouchRecord)
  | button (record : ButtonRecord)
deriving DecidableEq, Repr

/-- `E_BUS` (R7, D24): the transport's opaque error information. Which values there are is the open parameter `Config.eBusCode`; the block
passes one through untouched and never looks at it (log 15). -/
abbrev EBus := { code : Nat // code = 0 ∨ Config.eBusCode code = true }

/-- `E_IO` (R7, D24): the signal port's opaque error information, likewise (log 15). -/
abbrev EIo := { code : Nat // code = 0 ∨ Config.eIoCode code = true }

/-- The five error kinds of R13 and R160. They are responses, never faults of the model. -/
inductive ErrorKind where
  | busError (e : EBus)
  | invalidMessageLen (v : Word)
  | ioError (e : EIo)
  | noDataAvailable
  | sizeMismatch
deriving DecidableEq, Repr

/-- The one reason a command is refused (R13, R166). -/
inductive WrongState where
  | wrongState
deriving DecidableEq, Repr

/-- What the block delivers to the host (R13). -/
inductive Response where
  | openOk
  | queryOk (asserted : Bool)
  | readOk (ev : Event)
  | err (e : ErrorKind)
  | refused (why : WrongState)
deriving DecidableEq, Repr

/-- What the block asks of its environment: the exchange `(addr, write_len, read_len)` of R41 and the signal query of R171. -/
inductive Request where
  | memRead (addr writeLen readLen : Nat)
  | signalQuery
deriving DecidableEq, Repr

/-- What the block puts on its interfaces, in the one total order of R49. -/
inductive Output where
  | request (r : Request)
  | response (r : Response)
deriving DecidableEq, Repr

/-- The transport's answer to an exchange (R41): any byte list, or a bus error. -/
inductive BusAnswer where
  | ok (buf : List Byte)
  | busErr (e : EBus)
deriving DecidableEq, Repr

/-- The electrical level of the active-low signal line (R171). -/
inductive Level where
  | low
  | high
deriving DecidableEq, Repr

/-- The signal port's answer to a query (R171): the level of the line, or an I/O error. -/
inductive SigAnswer where
  | line (level : Level)
  | ioErr (e : EIo)
deriving DecidableEq, Repr

/-- One move of the outside world (R15, R17): reset, a command code on the host port (R72), an answer of the transport, an answer
of the signal port. -/
inductive Input where
  | reset
  | command (code : BitVec 2)
  | bus (a : BusAnswer)
  | sig (a : SigAnswer)
deriving DecidableEq, Repr

end Sys2Proof.Machine
end

