-- ==== Sys2Proof/Machine/State.lean ====
section
/-! DEFINITION. The state of the machine: the eight registers of R20, the three interfaces of R3 as two lists of plain data, and the
counter of the free values. -/

namespace Sys2Proof.Machine

/-- The whole state. -/
structure State where
  /-- R20, R21: the session state. -/
  sess : SessionState
  /-- R20, R28: true while a command is in progress. -/
  busy : Bool
  /-- R20, R27: which answer the sequencer is waiting for. -/
  phase : Phase
  /-- R20: the number of the handshake length read now outstanding or last completed. -/
  attempt : Nat
  /-- R20 `len_latch`: the value of the most recent length read of the command in progress. -/
  lenLatch : Word
  /-- R20 `kind_latch`: the kind of the READ in progress. -/
  kindLatch : Kind
  /-- R20 `frame_buf`: the bytes of the frame read, byte 0 first. -/
  frameBuf : Vector Byte Config.frameBufBytes
  /-- R20, R25 `frame_cnt`: how many bytes the transport answered to the frame read. -/
  frameCnt : Nat
  /-- The model's own: the moves of the host, the transport, the signal line and the reset input still to come, oldest first (log 8). -/
  inbox : List Input
  /-- The model's own: the requests and responses of the block so far, oldest first (R47, R49; log 8). -/
  outbox : List Output
  /-- The model's own: numbers the free values used so far (log 9). -/
  freeIdx : Nat
deriving DecidableEq, Repr

/-- Where the machine has no next step. -/
inductive Fault where
  /-- Raised by OPEN, READ and the kinds with a frame in a phase that awaits the transport when no further move of the outside world
  is to come: the hang of R196, "a stuck or non-terminating run". Safe: the hardware goes nowhere either. -/
  | transportSilent
  /-- Raised by QUERY and READ in a phase that awaits the signal port when no further move is to come (R196). Safe, as above. -/
  | signalSilent
deriving DecidableEq, Repr

/-- Why the model gives no next state. -/
inductive Refusal where
  /-- Raised by an arm of `exec` whose instruction has no meaning yet. Safe: nothing is claimed of it. -/
  | notModelled (mnemonic : String)
  /-- Raised by the fetch and by the acceptance of a command when a command comes while one is in progress: "no behaviour is defined
  for a second command" (R194, U6). Safe: nothing is claimed of what follows (log 11). -/
  | commandWhileBusy
  /-- Raised by an instruction that awaits an answer when the next move is no answer on that port: "the environment answers only
  outstanding requests, one answer each" (U6, R136). Safe (log 13). -/
  | answerNotAwaited
  /-- Raised by a frame kind executed in a phase in which no length prefix and no frame of its kind is read (R136 has no such row).
  Safe, and no step of a run raises it (log 17). -/
  | noFrameAwaited
deriving DecidableEq, Repr

/-- The machine right after reset (R32, R190). The five registers R32 leaves unspecified hold the values that log 1 to 5 name; the
interfaces are empty. -/
def State.reset : State where
  sess := .uninitialized
  busy := false
  phase := .idle
  attempt := 1
  lenLatch := 0
  kindLatch := .invalid 0
  frameBuf := Vector.replicate Config.frameBufBytes 0
  frameCnt := 0
  inbox := []
  outbox := []
  freeIdx := 0

/-- What a meaning answers. -/
abbrev Outcome := Host.Outcome State Fault Refusal

end Sys2Proof.Machine
end

