-- ==== Sys2Proof/Machine/Flags.lean ====
section
/-! DEFINITION. The one status flag `busy` (R28), the polarity of the signal line (R171), and the numeric codes of a response port
(R160). -/

namespace Sys2Proof.Machine

/-- Acceptance of a command sets `busy` (R28, R130). -/
def setBusy (s : State) : State := { s with busy := true }

/-- Delivery of a response clears `busy` (R28, R130). -/
def clearBusy (s : State) : State := { s with busy := false }

/-- `SIGNAL_POLARITY` is active-low: asserted is the low level (R7, R171). -/
def asserted : Level → Bool
  | .low => true
  | .high => false

/-- The code of an error kind on a numeric response port (R160, D15). -/
def ErrorKind.code : ErrorKind → Nat
  | .busError _ => 1
  | .invalidMessageLen _ => 2
  | .ioError _ => 3
  | .noDataAvailable => 4
  | .sizeMismatch => 5

/-- The code of a response (R160): 0 is "no error", 6 is `WrongState`. -/
def Response.code : Response → Nat
  | .openOk => 0
  | .queryOk _ => 0
  | .readOk _ => 0
  | .err e => e.code
  | .refused .wrongState => 6

end Sys2Proof.Machine
end

