-- ==== Sys2Proof/Syntax.lean ====
section
/-! DEFINITION. The nine instructions, one constructor per row of spec/opcode_table.json in the table's order: the six frame kinds
selected by the length prefix (R62) and the three host commands (R72). -/

namespace Sys2Proof

/-- The instructions. A kind's operand beyond the prefix is the answer of the frame read, which arrives in a later step. -/
inductive Instr where
  /-- `EMPTY`, length 2 (R93). -/
  | empty
  /-- `TOUCH0`, length 7 (R103). -/
  | touch0
  /-- `BUTTON`, length 14 (R121). -/
  | button
  /-- `TOUCH1`, length 17 (R104). -/
  | touch1
  /-- `TOUCH2`, length 27 (R105). -/
  | touch2
  /-- `INVALID(len)`, every length outside the five others (R96). -/
  | invalid (len : Word)
  /-- `OPEN`, command code 0 (R132). -/
  | openCmd
  /-- `QUERY`, command code 1 (R133). -/
  | queryCmd
  /-- `READ`, command code 2 (R134). -/
  | readCmd
deriving DecidableEq, Repr

end Sys2Proof
end

