-- ==== Sys2Proof/WellFormed.lean ====
section
/-! DEFINITION. The one check on an instruction: the operand of `INVALID` is a length that is no frame's (R70, R96). -/

namespace Sys2Proof

/-- The five lengths that select a kind other than `INVALID` (R62). -/
def recognisedLengths : List Word := [2, 7, 14, 17, 27]

/-- Well-formed: the operand of `INVALID` lies outside the recognised lengths (R96); the other eight carry no operand. -/
def Instr.wf : Instr → Bool
  | .invalid len => !(recognisedLengths.contains len)
  | .empty => true
  | .touch0 => true
  | .button => true
  | .touch1 => true
  | .touch2 => true
  | .openCmd => true
  | .queryCmd => true
  | .readCmd => true

end Sys2Proof
end

