-- ==== Sys2Proof/Decode.lean ====
section
/-! DEFINITION. Byte order and bit fields (R10, R11, R67), the classifier (R90, R91), the decoder from the two places an instruction
can stand (a frame's length prefix, the host's command port), and after it the encoder written from the same tables (R62, R72). -/

namespace Sys2Proof

open Sys2Proof.Machine

/-! ## Bytes, words and fields -/

/-- `b[i]` (R9). Outside the buffer it is 0, which no rule ever reads: every size is checked first (R98). -/
def byteAt (b : List Byte) (i : Nat) : Byte := b.getD i 0

/-- `le16(b, i) = b[i] + 256 * b[i+1]` (R11, R43, R67): the byte at the lower index is the low-order byte. -/
def le16 (b : List Byte) (i : Nat) : Word := (byteAt b i).setWidth 16 + 256 * (byteAt b (i + 1)).setWidth 16

/-- `(b >> lo) mod 2^w` (R10, R67): the field of width `w` whose lowest bit is bit `lo` of the byte. -/
def field (lo w : Nat) (b : Byte) : BitVec w := (b >>> lo).setWidth w

/-- `v & 0xFF`, the low-order byte of a word, which stands first (R43, R107). -/
def loByte (v : Word) : Byte := v.setWidth 8

/-- `v >> 8`, the high-order byte of a word (R107). -/
def hiByte (v : Word) : Byte := (v >>> 8).setWidth 8

/-! ## The classifier -/

/-- `Classify` (R90): a total, pure function of the 16-bit length. -/
def classify (len : Word) : Kind :=
  if len = 2 then .empty
  else if len = 7 then .touch0
  else if len = 14 then .button
  else if len = 17 then .touch1
  else if len = 27 then .touch2
  else .invalid len

/-- `FrameLen` (R91); `none` for the two kinds on which it is not defined. -/
def frameLen : Kind → Option Nat
  | .touch0 => some 7
  | .button => some 14
  | .touch1 => some 17
  | .touch2 => some 27
  | .empty => none
  | .invalid _ => none

/-! ## The decoder -/

/-- Why a bit pattern is no instruction. -/
inductive DecodeError where
  /-- Fewer than two bytes: no length prefix (R60, R61). -/
  | shortPrefix
  /-- Command code 3 "is not a command and is never accepted" (R72). -/
  | notACommand
deriving DecidableEq, Repr

/-- The instruction of a kind (R62). -/
def instrOfKind : Kind → Instr
  | .empty => .empty
  | .touch0 => .touch0
  | .button => .button
  | .touch1 => .touch1
  | .touch2 => .touch2
  | .invalid len => .invalid len

/-- Reads the kind from a frame's first two bytes (R61, R62) and gives back the bytes after them. -/
def decodeFrameWord : List Byte → Except DecodeError (Instr × List Byte)
  | b0 :: b1 :: rest => .ok (instrOfKind (classify (le16 [b0, b1] 0)), rest)
  | [_] => .error .shortPrefix
  | [] => .error .shortPrefix

/-- Reads a command from the 2-bit code `cmd[1:0]` (R72). -/
def decodeCommand (code : BitVec 2) : Except DecodeError Instr :=
  if code = 0 then .ok .openCmd
  else if code = 1 then .ok .queryCmd
  else if code = 2 then .ok .readCmd
  else .error .notACommand

/-- Where an instruction's bits stand: at the front of a frame, or on the command port. -/
inductive InstrCode where
  | frame (bytes : List Byte)
  | command (code : BitVec 2)
deriving DecidableEq, Repr

/-- The decoder, total on every bit pattern of either place. -/
def decode : InstrCode → Except DecodeError Instr
  | .frame bytes =>
    match decodeFrameWord bytes with
    | .ok (i, _) => .ok i
    | .error e => .error e
  | .command code => decodeCommand code

/-! ## The encoder -/

/-- The two bytes of a length prefix, low-order byte first (R61). -/
def prefixBytes (len : Word) : List Byte := [loByte len, hiByte len]

/-- The bits of an instruction, from the length map (R62) and the command codes (R72). -/
def encode : Instr → InstrCode
  | .empty => .frame (prefixBytes 2)
  | .touch0 => .frame (prefixBytes 7)
  | .button => .frame (prefixBytes 14)
  | .touch1 => .frame (prefixBytes 17)
  | .touch2 => .frame (prefixBytes 27)
  | .invalid len => .frame (prefixBytes len)
  | .openCmd => .command 0
  | .queryCmd => .command 1
  | .readCmd => .command 2

/-! ## The opcode table's numbering of bits -/

/-- The first `n` bytes of an instruction whose `nbits` bits are `w`, the bits above being 0; flat bit `8*i + k` is bit `k` of
byte `i` (`30_encoding.md` section 2). -/
def tableBytes (nbits w n : Nat) : List Byte :=
  (List.range n).map fun k => BitVec.ofNat 8 ((w % 2 ^ nbits) >>> (8 * k))

/-- The command code of a table row of at most one byte: `cmd[1:0]` (R72, R73). -/
def tableCommand (w : Nat) : BitVec 2 := BitVec.ofNat 2 w

/-- The instruction of a table row's bits: a row of at most one byte is a command code, a longer one is the front of a frame (R73;
log 26). -/
def decodeTableWord (nbits w : Nat) : Option Instr :=
  match decode (if nbits ≤ 8 then .command (tableCommand w) else .frame (tableBytes nbits w 27)) with
  | .ok i => some i
  | .error _ => none

end Sys2Proof
end

