-- ==== Sys2Proof/Machine/Operands.lean ====
section
/-! DEFINITION. The operands of the kinds with a frame: the unpackers (R100, R101, R120), the dispatch on the kind (R98), and the
packers of the round-trip law (R107, R108, R123), which are functions of the spec and no data path of the block (D22).
`PACK_ORDER` is msb_first (R44, C1). -/

namespace Sys2Proof.Machine

/-- `b[i..j)` (R9). -/
def slice (b : List Byte) (i j : Nat) : List Byte := (b.take j).drop i

/-! ## The unpackers -/

/-- `UnpackTouchReport` (R100, R63) of a 7-byte buffer. -/
def unpackTouchReport (r : List Byte) : TouchReport where
  dataLen := le16 r 0
  reportId := byteAt r 2
  timestamp := le16 r 3
  largeObject := field 5 1 (byteAt r 5)
  recordNum := field 0 5 (byteAt r 5)
  reportCounter := field 6 2 (byteAt r 6)
  noiseEffect := field 0 3 (byteAt r 6)

/-- `UnpackTouchRecord` (R101, R64) of a 10-byte buffer. -/
def unpackTouchRecord (t : List Byte) : TouchRecord where
  touchType := field 0 3 (byteAt t 0)
  tip := field 7 1 (byteAt t 1)
  eventId := field 5 2 (byteAt t 1)
  touchId := field 0 5 (byteAt t 1)
  x := le16 t 2
  y := le16 t 4
  pressure := byteAt t 6
  majorAxisLength := le16 t 7
  orientation := byteAt t 9

/-- `UnpackButtonRecord` (R120, R65) of a 14-byte buffer. All eight bits of `btn_val` are kept (D12). -/
def unpackButtonRecord (u : List Byte) : ButtonRecord where
  length := le16 u 0
  reportId := byteAt u 2
  timestamp := le16 u 3
  btnVal := byteAt u 5
  btnSignal := #v[le16 u 6, le16 u 8, le16 u 10, le16 u 12]

/-! ## The frame decoder -/

/-- Why a buffer gives no event. -/
inductive FrameError where
  /-- The buffer's length is not the kind's (R98, R165). -/
  | sizeMismatch
  /-- `DecodeFrame` is not defined for `EMPTY` and `INVALID` (R98). -/
  | noFrame
deriving DecidableEq, Repr

/-- `event` of the buffer if it has `n` bytes: the size check comes first, so every slice is inside the buffer (R98). -/
def sized (n : Nat) (event : List Byte → Event) (buf : List Byte) : Except FrameError Event :=
  if buf.length = n then .ok (event buf) else .error .sizeMismatch

/-- The event of a `TOUCH0` frame (R66, R103). -/
def touch0Event (buf : List Byte) : Event :=
  .touch (unpackTouchReport (slice buf 0 7)) none none

/-- The event of a `TOUCH1` frame (R66, R104). -/
def touch1Event (buf : List Byte) : Event :=
  .touch (unpackTouchReport (slice buf 0 7)) (some (unpackTouchRecord (slice buf 7 17))) none

/-- The event of a `TOUCH2` frame (R66, R105). -/
def touch2Event (buf : List Byte) : Event :=
  .touch (unpackTouchReport (slice buf 0 7)) (some (unpackTouchRecord (slice buf 7 17)))
    (some (unpackTouchRecord (slice buf 17 27)))

/-- The event of a `BUTTON` frame (R66, R121). -/
def buttonEvent (buf : List Byte) : Event := .button (unpackButtonRecord (slice buf 0 14))

/-- `DecodeFrame` (R98): the kind alone decides the shape (R99). -/
def decodeFrame : Kind → List Byte → Except FrameError Event
  | .touch0, buf => sized 7 touch0Event buf
  | .touch1, buf => sized 17 touch1Event buf
  | .touch2, buf => sized 27 touch2Event buf
  | .button, buf => sized 14 buttonEvent buf
  | .empty, _ => .error .noFrame
  | .invalid _, _ => .error .noFrame

/-! ## The packers of the round-trip law -/

/-- A field of `w` bits placed at bit `lo` of a byte, the bits around it zero: the `v << lo` of R107 and R108. -/
def bitsAt (lo : Nat) {w : Nat} (v : BitVec w) : Byte := v.setWidth 8 <<< lo

/-- `PackTouchReport` (R107), padding zero. -/
def packTouchReport (p : TouchReport) : List Byte :=
  [loByte p.dataLen, hiByte p.dataLen, p.reportId, loByte p.timestamp, hiByte p.timestamp,
   bitsAt 5 p.largeObject ||| bitsAt 0 p.recordNum, bitsAt 6 p.reportCounter ||| bitsAt 0 p.noiseEffect]

/-- `PackTouchRecord` (R108), padding zero. -/
def packTouchRecord (q : TouchRecord) : List Byte :=
  [bitsAt 0 q.touchType, bitsAt 7 q.tip ||| bitsAt 5 q.eventId ||| bitsAt 0 q.touchId, loByte q.x, hiByte q.x, loByte q.y, hiByte q.y,
   q.pressure, loByte q.majorAxisLength, hiByte q.majorAxisLength, q.orientation]

/-- `PackButtonRecord` (R123). -/
def packButtonRecord (p : ButtonRecord) : List Byte :=
  [loByte p.length, hiByte p.length, p.reportId, loByte p.timestamp, hiByte p.timestamp, p.btnVal,
   loByte p.btnSignal[0], hiByte p.btnSignal[0], loByte p.btnSignal[1], hiByte p.btnSignal[1],
   loByte p.btnSignal[2], hiByte p.btnSignal[2], loByte p.btnSignal[3], hiByte p.btnSignal[3]]

/-- The bytes of an optional record: none when it is absent (R109). -/
def packOptional : Option TouchRecord → List Byte
  | some q => packTouchRecord q
  | none => []

/-- The re-encoding of an event (R109, R123). -/
def packEvent : Event → List Byte
  | .touch report record0 record1 => packTouchReport report ++ packOptional record0 ++ packOptional record1
  | .button record => packButtonRecord record

/-- The kind whose frame has the event's shape (R103 to R105, R121); `none` for a second record without a first, which no frame
gives (R105). -/
def eventKind : Event → Option Kind
  | .touch _ none none => some .touch0
  | .touch _ (some _) none => some .touch1
  | .touch _ (some _) (some _) => some .touch2
  | .touch _ none (some _) => none
  | .button _ => some .button

/-- The bits of the byte at an index of a frame that are no padding (R69): byte 5 without `0xC0` and byte 6 without `0x38` in every
touch frame, byte 7 without `0xF8` in `TOUCH1` and `TOUCH2`, byte 17 without `0xF8` in `TOUCH2`. -/
def dataMask : Kind → Nat → Byte
  | .touch0, i => if i = 5 then 0x3F else if i = 6 then 0xC7 else 0xFF
  | .touch1, i => if i = 5 then 0x3F else if i = 6 then 0xC7 else if i = 7 then 0x07 else 0xFF
  | .touch2, i => if i = 5 then 0x3F else if i = 6 then 0xC7 else if i = 7 ∨ i = 17 then 0x07 else 0xFF
  | .button, _ => 0xFF
  | .empty, _ => 0xFF
  | .invalid _, _ => 0xFF

/-- A frame with its padding bits cleared (R69, R109). -/
def clearPadding (k : Kind) (buf : List Byte) : List Byte := buf.mapIdx fun i b => b &&& dataMask k i

end Sys2Proof.Machine
end

