-- ==== Sys2Proof/Machine/Ops.lean ====
section
/-! DEFINITION. The named operations of R14 over the state: requests and their answers, the delivery of a response, `raise` (the one
shared operation that stands for taking an exception: R168, R169) and the refusal of R137, the reset of R190, the latches and the frame
buffer (R54), and the handshake's treatment of a length (R132). There is no return from an exception to model: R170. -/

namespace Sys2Proof.Machine

/-! ## The frame buffer -/

/-- The byte of `frame_buf` at an index, 0 outside it (R40: indices 0 to 26). -/
def State.frameByte (s : State) (i : Nat) : Byte := byteAt s.frameBuf.toList i

/-- The first `n` bytes of `frame_buf` (R24). -/
def State.frame (s : State) (n : Nat) : List Byte := s.frameBuf.toList.take n

/-- 27 bytes without a specified value (R32, R54): free values from the `k`-th on. -/
@[irreducible] def freeBytes (k : Nat) : Vector Byte Config.frameBufBytes :=
  Vector.ofFn fun i => Config.freeByte (k + i)

/-- R54: an answer's bytes at their indices; a byte above them "keep[s] no specified value" and is a free value (log 7). -/
@[irreducible] def storedBytes (buf : List Byte) (k : Nat) : Vector Byte Config.frameBufBytes :=
  Vector.ofFn fun i => if i.val < buf.length then byteAt buf i else (freeBytes k)[i]

/-- `frame_buf[0..n) <- buf` (R54, R136). -/
def storeFrame (buf : List Byte) (s : State) : State :=
  { s with
    frameBuf := storedBytes buf s.freeIdx
    freeIdx := s.freeIdx + Config.frameBufBytes }

/-! ## Latches -/

/-- `len_latch <- v` (R54, R131). -/
def latchLen (v : Word) (s : State) : State := { s with lenLatch := v }

/-- `kind_latch <- k` (R134). -/
def latchKind (k : Kind) (s : State) : State := { s with kindLatch := k }

/-! ## Requests -/

/-- The exchange `MemRead(DEV_ADDR, n)` (R41): it writes no byte. -/
def memRead (n : Nat) : Request := .memRead Config.devAddr 0 n

/-- What a request makes the transport place on the bus: for an exchange the bytes that address the device, in the open format
`ADDR_FORMAT` (R48), and no payload (R42); for a signal query nothing (R171). -/
def Request.busBytes : Request → List Byte
  | .memRead addr _ _ => Config.addrFormat addr
  | .signalQuery => []

/-- What an output makes the transport place on the bus: a response nothing. -/
def Output.busBytes : Output → List Byte
  | .request r => r.busBytes
  | .response _ => []

/-- Every byte the block has caused to be placed on the bus, in order. -/
def State.busTraffic (s : State) : List Byte := s.outbox.flatMap Output.busBytes

/-- Issues a request and waits for its answer in phase `p` (R136). -/
def request (r : Request) (p : Phase) (s : State) : State :=
  { s with phase := p, outbox := s.outbox ++ [.request r] }

/-! ## Responses -/

/-- `respond(v)` (R14): delivers `v`, `phase <- IDLE`, `busy <- 0`. -/
def respond (r : Response) (s : State) : State :=
  clearBusy { s with phase := .idle, outbox := s.outbox ++ [.response r] }

/-- The session-state rule of an error (R169): only `InvalidMessageLen` in an OPEN changes `sess`. -/
def sessAfter (p : Phase) (e : ErrorKind) (old : SessionState) : SessionState :=
  match e with
  | .invalidMessageLen _ => if p = .openLen then .faulted else old
  | .busError _ => old
  | .ioError _ => old
  | .noDataAvailable => old
  | .sizeMismatch => old

/-- `raise <Error>` (R14, R168): delivers `Err(e)`, applies the session-state rule, ends the command. -/
def raiseErr (e : ErrorKind) (s : State) : State :=
  respond (.err e) { s with sess := sessAfter s.phase e s.sess }

/-- `refuse(WrongState)` (R14, R137): the response, and no register changes. -/
def refuse (s : State) : State := { s with outbox := s.outbox ++ [.response (.refused .wrongState)] }

/-! ## Acceptance of a command -/

/-- A command is accepted only when `busy` = 0 (R130); where the session state does not make it available it is refused with no effect
(R137); otherwise `busy` is set and the command starts. -/
def accept (available : Bool) (start : State → State) (s : State) : Outcome :=
  if s.busy then .refused .commandWhileBusy
  else if available then .next (start (setBusy s))
  else .next (refuse s)

/-! ## Answers -/

/-- Takes the transport's answer to the outstanding exchange (R41); none ever coming is the hang of R196. -/
def onBusAnswer (k : BusAnswer → State → Outcome) (s : State) : Outcome :=
  match s.inbox with
  | [] => .fault .transportSilent
  | .bus a :: rest => k a { s with inbox := rest }
  | .sig _ :: _ => .refused .answerNotAwaited
  | .command _ :: _ => .refused .answerNotAwaited
  | .reset :: _ => .refused .answerNotAwaited

/-- Takes the signal port's answer to the outstanding query (R171); none ever coming is the hang of R196. -/
def onSigAnswer (k : SigAnswer → State → Outcome) (s : State) : Outcome :=
  match s.inbox with
  | [] => .fault .signalSilent
  | .sig a :: rest => k a { s with inbox := rest }
  | .bus _ :: _ => .refused .answerNotAwaited
  | .command _ :: _ => .refused .answerNotAwaited
  | .reset :: _ => .refused .answerNotAwaited

/-- `ReadLen()`'s treatment of its answer (R131): the length, or the error it raises. -/
def lengthOf : BusAnswer → Except ErrorKind Word
  | .busErr e => .error (.busError e)
  | .ok buf => if buf.length = Config.lenPrefixBytes then .ok (le16 buf 0) else .error .sizeMismatch

/-! ## The handshake -/

/-- What OPEN does with a length it has read (R132): 2 ends the handshake with success, the fifth other value faults the session, an
earlier one is followed by another length read. -/
def handshakeValue (v : Word) (s : State) : State :=
  let t := latchLen v s
  if t.lenLatch = Config.sentinelLen then respond .openOk { t with sess := .ready }
  else if t.attempt < Config.handshakeAttempts then
    request (memRead Config.lenPrefixBytes) .openLen { t with attempt := t.attempt + 1 }
  else raiseErr (.invalidMessageLen t.lenLatch) t

/-! ## The frame read -/

/-- Delivers what `DecodeFrame` gave (R134). -/
def deliverFrame (r : Except FrameError Event) (s : State) : State :=
  match r with
  | .ok ev => respond (.readOk ev) s
  | .error _ => raiseErr .sizeMismatch s

/-- What READ does with the answer to its frame read of a kind `k` (R134, R136): `frame_cnt` is written, an answer of the right size is
stored and decoded from the buffer, another raises `SizeMismatch`, a bus error is passed on. -/
def receiveFrame (k : Kind) (a : BusAnswer) (s : State) : State :=
  match a with
  | .busErr e => raiseErr (.busError e) s
  | .ok buf =>
    let t := { s with frameCnt := buf.length }
    if some t.frameCnt = frameLen k then
      let u := storeFrame buf t
      deliverFrame (decodeFrame k (u.frame u.frameCnt)) u
    else raiseErr .sizeMismatch t

/-- The meaning of a kind that has a frame of `n` bytes, by the phase it stands in. In an OPEN its length just consumes an attempt
(R132); after the length read of a READ it is latched and the whole frame is asked for (R134, R197); then the answer is received. No
other phase reads a length or a frame (R136). -/
def frameKind (k : Kind) (n : Nat) (s : State) : Outcome :=
  match s.phase with
  | .openLen => .next (handshakeValue (BitVec.ofNat 16 n) s)
  | .readLen => .next (request (memRead n) .readFrame (latchKind k (latchLen (BitVec.ofNat 16 n) s)))
  | .readFrame => onBusAnswer (fun a t => .next (receiveFrame k a t)) s
  | .idle => .refused .noFrameAwaited
  | .querySig => .refused .noFrameAwaited
  | .readSig => .refused .noFrameAwaited

/-- The meaning of a kind without a frame whose length is `v`: in an OPEN the length is the handshake's (R93, R96, R132); in a READ it is
latched and the error is raised, with no frame read (R93, R96). -/
def errorKind (k : Kind) (v : Word) (e : ErrorKind) (s : State) : Outcome :=
  match s.phase with
  | .openLen => .next (handshakeValue v s)
  | .readLen => .next (raiseErr e (latchKind k (latchLen v s)))
  | .readFrame => .refused .noFrameAwaited
  | .idle => .refused .noFrameAwaited
  | .querySig => .refused .noFrameAwaited
  | .readSig => .refused .noFrameAwaited

/-! ## Reset -/

/-- The reset input (R190, R191): `sess`, `busy` and `phase` take their reset values, every other register is unspecified and takes a free
value (log 6). The device and the outside world's other moves are untouched. -/
def resetBlock (s : State) : State :=
  { s with
    sess := .uninitialized
    busy := false
    phase := .idle
    attempt := (Config.freeAttempt s.freeIdx).val + 1
    lenLatch := Config.freeWord s.freeIdx
    kindLatch := Config.freeKind s.freeIdx
    frameBuf := freeBytes s.freeIdx
    frameCnt := Config.freeCount s.freeIdx
    freeIdx := s.freeIdx + Config.frameBufBytes }

end Sys2Proof.Machine
end

