-- ==== Sys2Proof/Machine/Frames.lean ====
section
/-! DEFINITION. The meanings of the six frame kinds (`40_classifier.md`, `41_touch_decode.md`, `42_button_decode.md`). -/

namespace Sys2Proof.Machine

/-- `EMPTY` (R93): in a READ, `NoDataAvailable`. -/
def execEmpty (s : State) : Outcome := errorKind .empty 2 .noDataAvailable s

/-- `TOUCH0` (R103). -/
def execTouch0 (s : State) : Outcome := frameKind .touch0 7 s

/-- `BUTTON` (R121). -/
def execButton (s : State) : Outcome := frameKind .button 14 s

/-- `TOUCH1` (R104). -/
def execTouch1 (s : State) : Outcome := frameKind .touch1 17 s

/-- `TOUCH2` (R105). -/
def execTouch2 (s : State) : Outcome := frameKind .touch2 27 s

/-- `INVALID(v)` (R96): in a READ, `InvalidMessageLen(v)`. -/
def execInvalid (v : Word) (s : State) : Outcome := errorKind (.invalid v) v (.invalidMessageLen v) s

/-- The match on `kind_latch` in READ's pseudocode (R134). -/
def runKind (k : Kind) (s : State) : Outcome :=
  match k with
  | .empty => execEmpty s
  | .touch0 => execTouch0 s
  | .button => execButton s
  | .touch1 => execTouch1 s
  | .touch2 => execTouch2 s
  | .invalid v => execInvalid v s

end Sys2Proof.Machine
end

