-- ==== Sys2Proof/Machine/Commands.lean ====
section
/-! DEFINITION. The meanings of the three host commands (`43_session_ops.md`), one row of R136 a step. -/

namespace Sys2Proof.Machine

/-- OPEN on the answer to a length read (R131, R132). -/
def openAnswer (a : BusAnswer) (s : State) : State :=
  match lengthOf a with
  | .ok v => handshakeValue v s
  | .error e => raiseErr e s

/-- `OPEN` (R132): the first row starts the handshake, then each answer to a length read is treated. In another phase another command
is in progress. -/
def execOpen (s : State) : Outcome :=
  match s.phase with
  | .idle =>
    accept (s.sess == .uninitialized)
      (fun t => request (memRead Config.lenPrefixBytes) .openLen { t with attempt := 1 }) s
  | .openLen => onBusAnswer (fun a t => .next (openAnswer a t)) s
  | .querySig => .refused .commandWhileBusy
  | .readSig => .refused .commandWhileBusy
  | .readLen => .refused .commandWhileBusy
  | .readFrame => .refused .commandWhileBusy

/-- QUERY on the answer to its signal query (R133). -/
def queryAnswer (a : SigAnswer) (s : State) : State :=
  match a with
  | .line l => respond (.queryOk (asserted l)) s
  | .ioErr e => raiseErr (.ioError e) s

/-- `QUERY` (R133): the signal query, then its answer. -/
def execQuery (s : State) : Outcome :=
  match s.phase with
  | .idle => accept (s.sess == .ready) (request .signalQuery .querySig) s
  | .querySig => onSigAnswer (fun a t => .next (queryAnswer a t)) s
  | .openLen => .refused .commandWhileBusy
  | .readSig => .refused .commandWhileBusy
  | .readLen => .refused .commandWhileBusy
  | .readFrame => .refused .commandWhileBusy

/-- READ on the answer to its signal query (R134): the length read if the line is asserted. -/
def signalAnswer (a : SigAnswer) (s : State) : State :=
  match a with
  | .line l =>
    if asserted l then request (memRead Config.lenPrefixBytes) .readLen s
    else raiseErr .noDataAvailable s
  | .ioErr e => raiseErr (.ioError e) s

/-- READ on the answer to its length read (R131, R134): the kind of the length runs. -/
def lengthAnswer (a : BusAnswer) (s : State) : Outcome :=
  match lengthOf a with
  | .ok v => runKind (classify v) s
  | .error e => .next (raiseErr e s)

/-- `READ` (R134): the signal query; if the line is asserted the length read; then the kind of the length it read. -/
def execRead (s : State) : Outcome :=
  match s.phase with
  | .idle => accept (s.sess == .ready) (request .signalQuery .readSig) s
  | .readSig => onSigAnswer (fun a t => .next (signalAnswer a t)) s
  | .readLen => onBusAnswer lengthAnswer s
  | .readFrame => runKind s.kindLatch s
  | .openLen => .refused .commandWhileBusy
  | .querySig => .refused .commandWhileBusy

end Sys2Proof.Machine
end

