-- ==== Sys2Proof/Machine/Dispatch.lean ====
section
/-! DEFINITION. One arm per instruction. -/

namespace Sys2Proof.Machine

def exec (i : Instr) (s : State) : Host.Outcome State Fault Refusal :=
  match i with
  | .empty => Sys2Proof.Machine.execEmpty s
  | .touch0 => Sys2Proof.Machine.execTouch0 s
  | .button => Sys2Proof.Machine.execButton s
  | .touch1 => Sys2Proof.Machine.execTouch1 s
  | .touch2 => Sys2Proof.Machine.execTouch2 s
  | .invalid v => Sys2Proof.Machine.execInvalid v s
  | .openCmd => Sys2Proof.Machine.execOpen s
  | .queryCmd => Sys2Proof.Machine.execQuery s
  | .readCmd => Sys2Proof.Machine.execRead s

end Sys2Proof.Machine
end

