-- ==== Sys2Proof/Machine/Fetch.lean ====
section
/-! DEFINITION. What the next move of the outside world makes the block run: a command code read from the host port, a length prefix read
from the bus, the rest of an instruction in progress, or nothing but reset (R136, R191). -/

namespace Sys2Proof.Machine

/-- What a step is to do. -/
inductive Fetched where
  /-- Run the instruction in this state. -/
  | run (i : Instr) (s : State)
  /-- No instruction runs, the state is this one. -/
  | settle (s : State)
  /-- The model gives no next state. -/
  | refuse (r : Refusal)
deriving DecidableEq, Repr

/-- A command code at the front of `inbox` (R72, R130): code 3 is never accepted, with no response and no effect (R72, U12; log 14); a
command while one is in progress is refused by name (R194, U6; log 11). -/
def fetchCommand (code : BitVec 2) (s : State) : Fetched :=
  match decode (.command code) with
  | .error _ => .settle s
  | .ok i => if s.phase = .idle ∧ s.busy = false then .run i s else .refuse .commandWhileBusy

/-- The transport's answer to the length read of a READ: two bytes are the length prefix that selects the kind (R61, R92), and are
consumed here. Everything else is READ's own to treat (R131). -/
def fetchPrefix (s : State) : Fetched :=
  match s.inbox with
  | .bus (.ok buf) :: rest =>
    if buf.length = Config.lenPrefixBytes then
      match decode (.frame buf) with
      | .ok i => .run i { s with inbox := rest }
      | .error _ => .run .readCmd s
    else .run .readCmd s
  | .bus (.busErr _) :: _ => .run .readCmd s
  | .sig _ :: _ => .run .readCmd s
  | .command _ :: _ => .run .readCmd s
  | .reset :: _ => .run .readCmd s
  | [] => .run .readCmd s

/-- The instruction in progress in a waiting phase (R27, R136). In `IDLE` there is none: an idle block does nothing (R174), and takes no
step on an answer that arrives there (R191), which is dropped (log 10, log 12). -/
def fetchRest (s : State) : Fetched :=
  match s.phase with
  | .idle => .settle { s with inbox := s.inbox.tail }
  | .openLen => .run .openCmd s
  | .querySig => .run .queryCmd s
  | .readSig => .run .readCmd s
  | .readLen => fetchPrefix s
  | .readFrame => .run (instrOfKind s.kindLatch) s

/-- The fetch: reset and commands first, then the instruction in progress. -/
def fetch (s : State) : Fetched :=
  match s.inbox with
  | .reset :: rest => .settle (resetBlock { s with inbox := rest })
  | .command code :: rest => fetchCommand code { s with inbox := rest }
  | .bus _ :: _ => fetchRest s
  | .sig _ :: _ => fetchRest s
  | [] => fetchRest s

/-- The moves that bring a table row's bits to the place the next step fetches from: a command code on the host port; for a frame the answer
to the length read, which is its first two bytes, and, where its kind calls for a frame read, the answer to that: the whole frame. -/
def placedMoves (nbits w : Nat) : List Input :=
  if nbits ≤ 8 then [.command (tableCommand w)]
  else
    .bus (.ok (tableBytes nbits w 2)) ::
      match frameLen (classify (le16 (tableBytes nbits w 2) 0)) with
      | some n => [.bus (.ok (tableBytes nbits w n))]
      | none => []

/-- The registers a row's fetch needs: an idle block for a command, a READ that awaits its length read for a frame (log 20). -/
def placedRegisters (nbits : Nat) (s : State) : State :=
  if nbits ≤ 8 then { s with phase := .idle, busy := false }
  else { s with sess := .ready, phase := .readLen, busy := true }

end Sys2Proof.Machine
end

