-- ==== Sys2Proof/Machine/Step.lean ====
section
/-! DEFINITION. One step of the machine: one row of R136, one reset, or one move the block does not react to. -/

namespace Sys2Proof.Machine

/-- A step: fetch, then run what was fetched. -/
def step (s : State) : Host.Outcome State Fault Refusal :=
  match fetch s with
  | .run i t => exec i t
  | .settle t => .next t
  | .refuse r => .refused r

/-- `s` with the table row's bits placed where `step` fetches its next instruction (log 20). -/
def State.withFetchWord (s : State) (nbits w : Nat) : State :=
  let t := placedRegisters nbits s
  { t with inbox := placedMoves nbits w ++ t.inbox }

end Sys2Proof.Machine
end

