-- ==== Sys2Proof/Safety.lean ====
section
/-! DEFINITION. The terms claims are stated in: the request a phase waits for, the invariant of the sequencer, the outputs the block may
make, what a host can observe, the relabelling of opaque error codes, and the three commands' pseudocode (R132 to R134) as
functions of the answers the environment will give. -/

namespace Sys2Proof.Machine

/-! ## What a waiting phase waits for -/

/-- The request outstanding in a phase (R27, R136): none in `IDLE`. -/
def State.awaited (s : State) : Option Request :=
  match s.phase with
  | .idle => none
  | .openLen => some (memRead 2)
  | .querySig => some .signalQuery
  | .readSig => some .signalQuery
  | .readLen => some (memRead 2)
  | .readFrame => (frameLen s.kindLatch).map memRead

/-- The session state in which a phase can be entered (R132 to R134, R137): the command in progress was available there. -/
def Phase.home : Phase → SessionState → Prop
  | .idle, _ => True
  | .openLen, s => s = .uninitialized
  | .querySig, s => s = .ready
  | .readSig, s => s = .ready
  | .readLen, s => s = .ready
  | .readFrame, s => s = .ready

/-- The invariant of the sequencer. -/
structure State.Inv (s : State) : Prop where
  /-- R27, R28: `busy` is 0 exactly in `IDLE`. -/
  busyIff : s.busy = false ↔ s.phase = .idle
  /-- R137: a command runs only in the session state in which it is available. -/
  home : s.phase.home s.sess
  /-- R20: `attempt` is 1 to 5. -/
  attemptLow : 1 ≤ s.attempt
  attemptHigh : s.attempt ≤ 5
  /-- R20, R134: while a frame is awaited the kind is that of the length read, and has a frame. -/
  latched : s.phase = .readFrame → s.kindLatch = classify s.lenLatch ∧ (frameLen s.kindLatch).isSome = true
  /-- R49, R136: in a waiting phase the last thing the block did was to issue the request it waits for. -/
  outstanding : s.phase ≠ .idle → s.outbox.getLast? = s.awaited.map .request

/-- Quiescent (R200). -/
def State.Quiescent (s : State) : Prop := s.phase = .idle ∧ s.busy = false

/-- `k` steps (R200). -/
def steps (k : Nat) (s : State) : Outcome := Host.Core.run core k s

/-- What R103 to R105 and R121 say of a kind `k` with a frame of `n` bytes whose instruction is `i`: the two bytes that select it; in a READ
the whole frame is asked for; then a bus error is passed on, an answer of another size is a `SizeMismatch`, and an answer of `n` bytes
is delivered as `event` of it and stands in the first `n` bytes of `frame_buf` (R54, R136). `sess` never changes, nor does any register
not named. -/
structure FrameMeaning (i : Instr) (k : Kind) (n : Nat) (event : List Byte → Event) : Prop where
  decodes : ∀ (b0 b1 : Byte) more, decode (.frame (b0 :: b1 :: more)) = .ok i ↔ b0 = BitVec.ofNat 8 n ∧ b1 = 0x00
  asks : ∀ s : State, s.phase = .readLen →
    exec i s = .next { s with lenLatch := BitVec.ofNat 16 n, kindLatch := k, phase := .readFrame,
                              outbox := s.outbox ++ [.request (.memRead 0x24 0 n)] }
  busError : ∀ (s : State) e rest, s.phase = .readFrame → s.inbox = .bus (.busErr e) :: rest →
    exec i s = .next { s with inbox := rest, phase := .idle, busy := false,
                              outbox := s.outbox ++ [.response (.err (.busError e))] }
  sizeMismatch : ∀ (s : State) buf rest, s.phase = .readFrame → s.inbox = .bus (.ok buf) :: rest → buf.length ≠ n →
    exec i s = .next { s with inbox := rest, phase := .idle, busy := false, frameCnt := buf.length,
                              outbox := s.outbox ++ [.response (.err .sizeMismatch)] }
  delivers : ∀ (s : State) buf rest, s.phase = .readFrame → s.inbox = .bus (.ok buf) :: rest → buf.length = n →
    ∃ t, exec i s = .next t ∧
      t = { s with inbox := rest, phase := .idle, busy := false, frameCnt := n, frameBuf := t.frameBuf, freeIdx := t.freeIdx,
                   outbox := s.outbox ++ [.response (.readOk (event buf))] } ∧
      ∀ j, j < n → t.frameByte j = byteAt buf j

/-! ## The transition table of R136 -/

/-- The table of R136, one constructor per row, in the table's order: in state `s`, on event `e`, the block moves to `t`. A request is
`MemRead(0x24, n)` with no byte written (R41); the first column of registers is `busy`, `attempt`, the latches, `frame_cnt` and
`frame_buf`; a row that delivers a response also sets `busy <- 0`. The event has already been taken from `s.inbox`. -/
inductive Row (s : State) : Input → State → Prop where
  | openStart (hp : s.phase = .idle) (hb : s.busy = false) (hs : s.sess = .uninitialized) :
      Row s (.command 0) { s with busy := true, attempt := 1, phase := .openLen, outbox := s.outbox ++ [.request (.memRead 0x24 0 2)] }
  | openRefused (hp : s.phase = .idle) (hb : s.busy = false) (hs : s.sess ≠ .uninitialized) :
      Row s (.command 0) { s with outbox := s.outbox ++ [.response (.refused .wrongState)] }
  | queryStart (hp : s.phase = .idle) (hb : s.busy = false) (hs : s.sess = .ready) :
      Row s (.command 1) { s with busy := true, phase := .querySig, outbox := s.outbox ++ [.request .signalQuery] }
  | queryRefused (hp : s.phase = .idle) (hb : s.busy = false) (hs : s.sess ≠ .ready) :
      Row s (.command 1) { s with outbox := s.outbox ++ [.response (.refused .wrongState)] }
  | readStart (hp : s.phase = .idle) (hb : s.busy = false) (hs : s.sess = .ready) :
      Row s (.command 2) { s with busy := true, phase := .readSig, outbox := s.outbox ++ [.request .signalQuery] }
  | readRefused (hp : s.phase = .idle) (hb : s.busy = false) (hs : s.sess ≠ .ready) :
      Row s (.command 2) { s with outbox := s.outbox ++ [.response (.refused .wrongState)] }
  | openBusErr (e : EBus) (hp : s.phase = .openLen) :
      Row s (.bus (.busErr e)) { s with busy := false, phase := .idle, outbox := s.outbox ++ [.response (.err (.busError e))] }
  | openSize (buf : List Byte) (hp : s.phase = .openLen) (hn : buf.length ≠ 2) :
      Row s (.bus (.ok buf)) { s with busy := false, phase := .idle, outbox := s.outbox ++ [.response (.err .sizeMismatch)] }
  | openDone (buf : List Byte) (hp : s.phase = .openLen) (hn : buf.length = 2) (hv : le16 buf 0 = 2) :
      Row s (.bus (.ok buf))
        { s with lenLatch := 2, sess := .ready, busy := false, phase := .idle, outbox := s.outbox ++ [.response .openOk] }
  | openAgain (buf : List Byte) (hp : s.phase = .openLen) (hn : buf.length = 2) (hv : le16 buf 0 ≠ 2) (ha : s.attempt < 5) :
      Row s (.bus (.ok buf))
        { s with lenLatch := le16 buf 0, attempt := s.attempt + 1, outbox := s.outbox ++ [.request (.memRead 0x24 0 2)] }
  | openFaults (buf : List Byte) (hp : s.phase = .openLen) (hn : buf.length = 2) (hv : le16 buf 0 ≠ 2) (ha : s.attempt = 5) :
      Row s (.bus (.ok buf))
        { s with lenLatch := le16 buf 0, sess := .faulted, busy := false, phase := .idle,
                 outbox := s.outbox ++ [.response (.err (.invalidMessageLen (le16 buf 0)))] }
  | queryIoErr (e : EIo) (hp : s.phase = .querySig) :
      Row s (.sig (.ioErr e)) { s with busy := false, phase := .idle, outbox := s.outbox ++ [.response (.err (.ioError e))] }
  | queryDone (l : Level) (hp : s.phase = .querySig) :
      Row s (.sig (.line l)) { s with busy := false, phase := .idle, outbox := s.outbox ++ [.response (.queryOk (l == .low))] }
  | readIoErr (e : EIo) (hp : s.phase = .readSig) :
      Row s (.sig (.ioErr e)) { s with busy := false, phase := .idle, outbox := s.outbox ++ [.response (.err (.ioError e))] }
  | readNotAsserted (hp : s.phase = .readSig) :
      Row s (.sig (.line .high)) { s with busy := false, phase := .idle, outbox := s.outbox ++ [.response (.err .noDataAvailable)] }
  | readAsserted (hp : s.phase = .readSig) :
      Row s (.sig (.line .low)) { s with phase := .readLen, outbox := s.outbox ++ [.request (.memRead 0x24 0 2)] }
  | lenBusErr (e : EBus) (hp : s.phase = .readLen) :
      Row s (.bus (.busErr e)) { s with busy := false, phase := .idle, outbox := s.outbox ++ [.response (.err (.busError e))] }
  | lenSize (buf : List Byte) (hp : s.phase = .readLen) (hn : buf.length ≠ 2) :
      Row s (.bus (.ok buf)) { s with busy := false, phase := .idle, outbox := s.outbox ++ [.response (.err .sizeMismatch)] }
  | lenEmpty (buf : List Byte) (hp : s.phase = .readLen) (hn : buf.length = 2) (hv : le16 buf 0 = 2) :
      Row s (.bus (.ok buf))
        { s with lenLatch := 2, kindLatch := .empty, busy := false, phase := .idle,
                 outbox := s.outbox ++ [.response (.err .noDataAvailable)] }
  | lenInvalid (buf : List Byte) (hp : s.phase = .readLen) (hn : buf.length = 2)
      (hv : le16 buf 0 ≠ 2 ∧ le16 buf 0 ≠ 7 ∧ le16 buf 0 ≠ 14 ∧ le16 buf 0 ≠ 17 ∧ le16 buf 0 ≠ 27) :
      Row s (.bus (.ok buf))
        { s with lenLatch := le16 buf 0, kindLatch := .invalid (le16 buf 0), busy := false, phase := .idle,
                 outbox := s.outbox ++ [.response (.err (.invalidMessageLen (le16 buf 0)))] }
  | lenFrame (buf : List Byte) (hp : s.phase = .readLen) (hn : buf.length = 2)
      (hv : le16 buf 0 = 7 ∨ le16 buf 0 = 14 ∨ le16 buf 0 = 17 ∨ le16 buf 0 = 27) :
      Row s (.bus (.ok buf))
        { s with lenLatch := le16 buf 0, kindLatch := classify (le16 buf 0), phase := .readFrame,
                 outbox := s.outbox ++ [.request (.memRead 0x24 0 (le16 buf 0).toNat)] }
  | frameBusErr (e : EBus) (hp : s.phase = .readFrame) :
      Row s (.bus (.busErr e)) { s with busy := false, phase := .idle, outbox := s.outbox ++ [.response (.err (.busError e))] }
  | frameSize (buf : List Byte) (hp : s.phase = .readFrame) (hn : buf.length ≠ s.lenLatch.toNat) :
      Row s (.bus (.ok buf))
        { s with frameCnt := buf.length, busy := false, phase := .idle, outbox := s.outbox ++ [.response (.err .sizeMismatch)] }
  | frameDone (buf : List Byte) (ev : Event) (hp : s.phase = .readFrame) (hn : buf.length = s.lenLatch.toNat)
      (hd : decodeFrame s.kindLatch buf = .ok ev) :
      Row s (.bus (.ok buf))
        { storeFrame buf s with frameCnt := buf.length, busy := false, phase := .idle, outbox := s.outbox ++ [.response (.readOk ev)] }

/-- The events the table of R136 has rows for in some phase: commands, and answers to an outstanding request. Reset is no row of it
(R190), code 3 is no command (R72), and an answer in `IDLE` has no row (R136, R191). -/
def State.TableEvent (s : State) : Input → Prop
  | .reset => False
  | .command c => c ≠ 3
  | .bus _ => s.phase ≠ .idle
  | .sig _ => s.phase ≠ .idle

/-! ## What the block may put on its interfaces -/

/-- The requests of R41, R42 and R171: exchanges with `DEV_ADDR` that write no byte and read 2, 7, 14, 17 or 27 bytes, and signal
queries. -/
def Request.Legal : Request → Prop
  | .memRead addr writeLen readLen => addr = 0x24 ∧ writeLen = 0 ∧ (readLen = 2 ∨ readLen = 7 ∨ readLen = 14 ∨ readLen = 17 ∨ readLen = 27)
  | .signalQuery => True

/-- The responses of R135 taken together: `InvalidMessageLen` is never raised with 2 (R162), and an event has the shape of a frame (R98,
R105). -/
def Response.Legal : Response → Prop
  | .openOk => True
  | .queryOk _ => True
  | .readOk ev => (eventKind ev).isSome = true
  | .err (.invalidMessageLen v) => v ≠ 2
  | .err (.busError _) => True
  | .err (.ioError _) => True
  | .err .noDataAvailable => True
  | .err .sizeMismatch => True
  | .refused _ => True

/-- An output the block may make. -/
def Output.Legal : Output → Prop
  | .request r => r.Legal
  | .response r => r.Legal

/-- The responses OPEN can deliver (R135). -/
def openResponses : Response → Prop
  | .openOk => True
  | .err (.busError _) => True
  | .err .sizeMismatch => True
  | .err (.invalidMessageLen v) => v ≠ 2
  | .refused _ => True
  | .queryOk _ => False
  | .readOk _ => False
  | .err (.ioError _) => False
  | .err .noDataAvailable => False

/-- The responses QUERY can deliver (R135). -/
def queryResponses : Response → Prop
  | .queryOk _ => True
  | .err (.ioError _) => True
  | .refused _ => True
  | .openOk => False
  | .readOk _ => False
  | .err (.busError _) => False
  | .err (.invalidMessageLen _) => False
  | .err .noDataAvailable => False
  | .err .sizeMismatch => False

/-- The responses READ can deliver (R135). -/
def readResponses : Response → Prop
  | .readOk _ => True
  | .err (.ioError _) => True
  | .err .noDataAvailable => True
  | .err (.busError _) => True
  | .err .sizeMismatch => True
  | .err (.invalidMessageLen v) => v ≠ 2 ∧ v ≠ 7 ∧ v ≠ 14 ∧ v ≠ 17 ∧ v ≠ 27
  | .refused _ => True
  | .openOk => False
  | .queryOk _ => False

/-- The command a waiting phase belongs to, or the command that is starting. -/
def phaseResponses : Phase → Response → Prop
  | .idle, r => r = .refused .wrongState
  | .openLen, r => openResponses r
  | .querySig, r => queryResponses r
  | .readSig, r => readResponses r
  | .readLen, r => readResponses r
  | .readFrame, r => readResponses r

/-! ## What the host can observe -/

/-- Two states that agree on everything but working registers no later rule reads (R23, R24): `attempt` matters only during a
handshake, `kind_latch` only while a frame is awaited; `len_latch`, `frame_buf`, `frame_cnt` and the free-value counter never. -/
structure State.Alike (s t : State) : Prop where
  sess : s.sess = t.sess
  busy : s.busy = t.busy
  phase : s.phase = t.phase
  inbox : s.inbox = t.inbox
  outbox : s.outbox = t.outbox
  attempt : s.phase = .openLen → s.attempt = t.attempt
  kind : s.phase = .readFrame → s.kindLatch = t.kindLatch

/-- Outcomes of the same form whose next states are alike. -/
def OutcomesAlike : Host.Outcome State Fault Refusal → Host.Outcome State Fault Refusal → Prop
  | .next s, .next t => s.Alike t
  | .fault f, .fault g => f = g
  | .refused r, .refused q => r = q
  | .next _, .fault _ => False
  | .next _, .refused _ => False
  | .fault _, .next _ => False
  | .fault _, .refused _ => False
  | .refused _, .next _ => False
  | .refused _, .fault _ => False

/-! ## Relabelling the opaque error codes -/

/-- A renaming of the codes of `E_BUS` and `E_IO`. -/
structure Relabel where
  bus : EBus → EBus
  io : EIo → EIo

/-- The renaming of an error's payload. -/
def Relabel.error (m : Relabel) : ErrorKind → ErrorKind
  | .busError e => .busError (m.bus e)
  | .ioError e => .ioError (m.io e)
  | .invalidMessageLen v => .invalidMessageLen v
  | .noDataAvailable => .noDataAvailable
  | .sizeMismatch => .sizeMismatch

/-- The renaming of an output. -/
def Relabel.output (m : Relabel) : Output → Output
  | .response (.err e) => .response (.err (m.error e))
  | .response .openOk => .response .openOk
  | .response (.queryOk a) => .response (.queryOk a)
  | .response (.readOk ev) => .response (.readOk ev)
  | .response (.refused w) => .response (.refused w)
  | .request r => .request r

/-- The renaming of a move of the outside world. -/
def Relabel.input (m : Relabel) : Input → Input
  | .bus (.busErr e) => .bus (.busErr (m.bus e))
  | .sig (.ioErr e) => .sig (.ioErr (m.io e))
  | .bus (.ok buf) => .bus (.ok buf)
  | .sig (.line l) => .sig (.line l)
  | .command c => .command c
  | .reset => .reset

/-- The renaming of a state: codes stand only on the interfaces. -/
def Relabel.state (m : Relabel) (s : State) : State :=
  { s with inbox := s.inbox.map m.input, outbox := s.outbox.map m.output }

/-- The renaming of an outcome. -/
def Relabel.outcome (m : Relabel) : Host.Outcome State Fault Refusal → Host.Outcome State Fault Refusal
  | .next s => .next (m.state s)
  | .fault f => .fault f
  | .refused r => .refused r

/-! ## The commands as the pseudocode has them -/

/-- How an OPEN ends: its response, the session state, the number of length reads made, the last length latched. -/
structure OpenEnd where
  response : Response
  sess : SessionState
  attempt : Nat
  lenLatch : Word

/-- The loop of R132, at its `attempt`-th length read, on the answers the transport will give; `none` if they run out. -/
def openLoop (attempt : Nat) (latch : Word) : List BusAnswer → Option OpenEnd
  | [] => none
  | .busErr e :: _ => some ⟨.err (.busError e), .uninitialized, attempt, latch⟩
  | .ok buf :: more =>
    if buf.length ≠ 2 then some ⟨.err .sizeMismatch, .uninitialized, attempt, latch⟩
    else if le16 buf 0 = 2 then some ⟨.openOk, .ready, attempt, 2⟩
    else if attempt = 5 then some ⟨.err (.invalidMessageLen (le16 buf 0)), .faulted, attempt, le16 buf 0⟩
    else openLoop (attempt + 1) (le16 buf 0) more

/-- How a READ ends: its response, the requests it made, the number of answers of the transport it used, the registers it leaves,
and the frame it stored. -/
structure ReadEnd where
  response : Response
  requests : List Request
  used : Nat
  lenLatch : Word
  kindLatch : Kind
  frameCnt : Nat
  stored : Option (List Byte)

/-- The end of a READ of a kind with a frame, on the transport's answer to the frame read (R134's last arm). -/
def readEndFrame (s : State) (v : Word) (k : Kind) : BusAnswer → ReadEnd
  | .busErr e =>
    ⟨.err (.busError e), [.signalQuery, memRead 2, memRead v.toNat], 2, v, k, s.frameCnt, none⟩
  | .ok buf =>
    match decodeFrame k buf with
    | .ok ev => ⟨.readOk ev, [.signalQuery, memRead 2, memRead v.toNat], 2, v, k, buf.length, some buf⟩
    | .error _ => ⟨.err .sizeMismatch, [.signalQuery, memRead 2, memRead v.toNat], 2, v, k, buf.length, none⟩

/-- The end of a READ that has read the length `v`, on the transport's answers after it. -/
def readEndLength (s : State) (v : Word) (more : List BusAnswer) : Option ReadEnd :=
  match classify v with
  | .empty => some ⟨.err .noDataAvailable, [.signalQuery, memRead 2], 1, v, .empty, s.frameCnt, none⟩
  | .invalid w => some ⟨.err (.invalidMessageLen w), [.signalQuery, memRead 2], 1, v, .invalid w, s.frameCnt, none⟩
  | .touch0 => more.head?.map (readEndFrame s v .touch0)
  | .touch1 => more.head?.map (readEndFrame s v .touch1)
  | .touch2 => more.head?.map (readEndFrame s v .touch2)
  | .button => more.head?.map (readEndFrame s v .button)

/-- READ's pseudocode (R134) from a state `s`, on the signal port's answer and the answers the transport will give; `none` if they run
out. -/
def readCommand (s : State) : SigAnswer → List BusAnswer → Option ReadEnd
  | .ioErr e, _ => some ⟨.err (.ioError e), [.signalQuery], 0, s.lenLatch, s.kindLatch, s.frameCnt, none⟩
  | .line .high, _ => some ⟨.err .noDataAvailable, [.signalQuery], 0, s.lenLatch, s.kindLatch, s.frameCnt, none⟩
  | .line .low, [] => none
  | .line .low, .busErr e :: _ =>
    some ⟨.err (.busError e), [.signalQuery, memRead 2], 1, s.lenLatch, s.kindLatch, s.frameCnt, none⟩
  | .line .low, .ok buf :: more =>
    if buf.length ≠ 2 then
      some ⟨.err .sizeMismatch, [.signalQuery, memRead 2], 1, s.lenLatch, s.kindLatch, s.frameCnt, none⟩
    else readEndLength s (le16 buf 0) more

end Sys2Proof.Machine
end

