-- ==== Sys2Proof/Certificates/Slice0/Obligations.lean ====
section
/-! DEFINITION. The statements for the provers, family by family: encodings, the layouts, the kinds, the commands, the step, the whole
machine. Each docstring names the rules it formalises. -/

open Sys2Proof Sys2Proof.Machine

/-! ## Encodings -/

/-- R90: the six outcomes of the classifier, each exactly on its lengths, the offending value attached. -/
def Obligations.ClassifyIsTheLengthMap : Prop :=
  ∀ v : Word,
    (classify v = .empty ↔ v = 2) ∧ (classify v = .touch0 ↔ v = 7) ∧ (classify v = .button ↔ v = 14) ∧
    (classify v = .touch1 ↔ v = 17) ∧ (classify v = .touch2 ↔ v = 27) ∧
    (classify v = .invalid v ↔ v ≠ 2 ∧ v ≠ 7 ∧ v ≠ 14 ∧ v ≠ 17 ∧ v ≠ 27) ∧
    ∀ w, classify v = .invalid w → w = v

/-- R91: the byte count of each kind's frame read, undefined for `EMPTY` and `INVALID`, and equal to the length that was classified. -/
def Obligations.FrameLenOfClassified : Prop :=
  frameLen .touch0 = some 7 ∧ frameLen .button = some 14 ∧ frameLen .touch1 = some 17 ∧ frameLen .touch2 = some 27 ∧
  frameLen .empty = none ∧ (∀ w, frameLen (.invalid w) = none) ∧
  ∀ (v : Word) n, frameLen (classify v) = some n → n = v.toNat

/-- R61, R62, R72: words written out from the spec's tables decode to the instructions they stand for. -/
def Obligations.SampleWordsDecode : Prop :=
  decode (.frame [0x02, 0x00]) = .ok .empty ∧ decode (.frame [0x07, 0x00, 0x01, 0x34]) = .ok .touch0 ∧
  decode (.frame [0x0E, 0x00]) = .ok .button ∧ decode (.frame [0x11, 0x00]) = .ok .touch1 ∧
  decode (.frame [0x1B, 0x00]) = .ok .touch2 ∧ decode (.frame [0x02, 0x01]) = .ok (.invalid 258) ∧
  decode (.frame [0x00, 0x07]) = .ok (.invalid 1792) ∧ decode (.frame [0xFF, 0xFF]) = .ok (.invalid 65535) ∧
  decode (.frame [0x02]) = .error .shortPrefix ∧ decode (.frame []) = .error .shortPrefix ∧
  decode (.command 0b00) = .ok .openCmd ∧ decode (.command 0b01) = .ok .queryCmd ∧
  decode (.command 0b10) = .ok .readCmd ∧ decode (.command 0b11) = .error .notACommand

/-- R62, R72: decoding the encoding of a well-formed instruction gives it back. -/
def Obligations.DecodeOfEncode : Prop :=
  ∀ i : Instr, i.wf = true → decode (encode i) = .ok i

/-- R62, R72: what decodes is well formed, and its encoding is the bits it was decoded from (of a frame, the first two bytes). -/
def Obligations.EncodeOfDecode : Prop :=
  (∀ code i, decode (.command code) = .ok i → i.wf = true ∧ encode i = .command code) ∧
  (∀ bytes i, decode (.frame bytes) = .ok i → i.wf = true ∧ encode i = .frame (bytes.take 2))

/-- R11: little-endian assembly inside the buffer. -/
def Obligations.LittleEndianAssembly : Prop :=
  ∀ (b : List Byte) (i : Nat) (h : i + 1 < b.length), (le16 b i).toNat = (b[i]).toNat + 256 * (b[i + 1]).toNat

/-! ## Layouts -/

/-- R100: the fields of a touch report, by the arithmetic of the rule on the seven bytes, and its worked examples. -/
def Obligations.UnpackTouchReportFields : Prop :=
  (∀ r : List Byte, r.length = 7 →
    (unpackTouchReport r).dataLen.toNat = (byteAt r 0).toNat + 256 * (byteAt r 1).toNat ∧
    (unpackTouchReport r).reportId = byteAt r 2 ∧
    (unpackTouchReport r).timestamp.toNat = (byteAt r 3).toNat + 256 * (byteAt r 4).toNat ∧
    (unpackTouchReport r).largeObject.toNat = (byteAt r 5).toNat / 32 % 2 ∧
    (unpackTouchReport r).recordNum.toNat = (byteAt r 5).toNat % 32 ∧
    (unpackTouchReport r).reportCounter.toNat = (byteAt r 6).toNat / 64 % 4 ∧
    (unpackTouchReport r).noiseEffect.toNat = (byteAt r 6).toNat % 8) ∧
  unpackTouchReport [0x07, 0x00, 0x01, 0x34, 0x12, 0x2D, 0x83] = ⟨7, 1, 4660, 1, 13, 2, 3⟩

/-- R101: the fields of a touch record, by the arithmetic of the rule on the ten bytes, and its example. -/
def Obligations.UnpackTouchRecordFields : Prop :=
  (∀ t : List Byte, t.length = 10 →
    (unpackTouchRecord t).touchType.toNat = (byteAt t 0).toNat % 8 ∧
    (unpackTouchRecord t).tip.toNat = (byteAt t 1).toNat / 128 % 2 ∧
    (unpackTouchRecord t).eventId.toNat = (byteAt t 1).toNat / 32 % 4 ∧
    (unpackTouchRecord t).touchId.toNat = (byteAt t 1).toNat % 32 ∧
    (unpackTouchRecord t).x.toNat = (byteAt t 2).toNat + 256 * (byteAt t 3).toNat ∧
    (unpackTouchRecord t).y.toNat = (byteAt t 4).toNat + 256 * (byteAt t 5).toNat ∧
    (unpackTouchRecord t).pressure = byteAt t 6 ∧
    (unpackTouchRecord t).majorAxisLength.toNat = (byteAt t 7).toNat + 256 * (byteAt t 8).toNat ∧
    (unpackTouchRecord t).orientation = byteAt t 9) ∧
  unpackTouchRecord [0x03, 0xA5, 0x20, 0x03, 0xE0, 0x01, 0x40, 0x10, 0x00, 0x5A] = ⟨3, 1, 1, 5, 800, 480, 64, 16, 90⟩

/-- R120: the fields of a button record on the fourteen bytes, all eight bits of `btn_val` kept. -/
def Obligations.UnpackButtonRecordFields : Prop :=
  ∀ u : List Byte, u.length = 14 →
    (unpackButtonRecord u).length.toNat = (byteAt u 0).toNat + 256 * (byteAt u 1).toNat ∧
    (unpackButtonRecord u).reportId = byteAt u 2 ∧
    (unpackButtonRecord u).timestamp.toNat = (byteAt u 3).toNat + 256 * (byteAt u 4).toNat ∧
    (unpackButtonRecord u).btnVal = byteAt u 5 ∧
    ∀ j : Fin 4, ((unpackButtonRecord u).btnSignal[j]).toNat =
      (byteAt u (6 + 2 * j)).toNat + 256 * (byteAt u (7 + 2 * j)).toNat

/-- R107, R108, R123: the packers' bytes as numbers, padding zero. -/
def Obligations.PackersWriteZeroPadding : Prop :=
  (∀ p : TouchReport, (packTouchReport p).map (·.toNat) =
    [p.dataLen.toNat % 256, p.dataLen.toNat / 256, p.reportId.toNat, p.timestamp.toNat % 256, p.timestamp.toNat / 256,
     32 * p.largeObject.toNat + p.recordNum.toNat, 64 * p.reportCounter.toNat + p.noiseEffect.toNat]) ∧
  (∀ q : TouchRecord, (packTouchRecord q).map (·.toNat) =
    [q.touchType.toNat, 128 * q.tip.toNat + 32 * q.eventId.toNat + q.touchId.toNat, q.x.toNat % 256, q.x.toNat / 256,
     q.y.toNat % 256, q.y.toNat / 256, q.pressure.toNat, q.majorAxisLength.toNat % 256, q.majorAxisLength.toNat / 256,
     q.orientation.toNat]) ∧
  (∀ p : ButtonRecord, (packButtonRecord p).map (·.toNat) =
    [p.length.toNat % 256, p.length.toNat / 256, p.reportId.toNat, p.timestamp.toNat % 256, p.timestamp.toNat / 256, p.btnVal.toNat,
     p.btnSignal[0].toNat % 256, p.btnSignal[0].toNat / 256, p.btnSignal[1].toNat % 256, p.btnSignal[1].toNat / 256,
     p.btnSignal[2].toNat % 256, p.btnSignal[2].toNat / 256, p.btnSignal[3].toNat % 256, p.btnSignal[3].toNat / 256])

/-- R109, first half: re-encoding a decoded report or record gives the bytes back with the padding cleared; decoding an encoded one gives the
value back. -/
def Obligations.TouchPartsRoundTrip : Prop :=
  (∀ r : List Byte, r.length = 7 →
    packTouchReport (unpackTouchReport r) = (r.set 5 (byteAt r 5 &&& 0x3F)).set 6 (byteAt r 6 &&& 0xC7)) ∧
  (∀ t : List Byte, t.length = 10 → packTouchRecord (unpackTouchRecord t) = t.set 0 (byteAt t 0 &&& 0x07)) ∧
  (∀ p : TouchReport, unpackTouchReport (packTouchReport p) = p) ∧
  (∀ q : TouchRecord, unpackTouchRecord (packTouchRecord q) = q)

/-- R124: the button record's round trip, exact in both directions. -/
def Obligations.ButtonRoundTrip : Prop :=
  (∀ u : List Byte, u.length = 14 → packButtonRecord (unpackButtonRecord u) = u) ∧
  (∀ p : ButtonRecord, unpackButtonRecord (packButtonRecord p) = p)

/-- R109, R124: decode and encode agree on whole frames. Every event a frame can carry is decoded from its encoding, with every field at
every value; and every frame that decodes is given back by re-encoding its event, padding cleared, at its own length. -/
def Obligations.FrameRoundTrip : Prop :=
  (∀ k ev, eventKind ev = some k → decodeFrame k (packEvent ev) = .ok ev) ∧
  (∀ k buf ev, decodeFrame k buf = .ok ev → packEvent ev = clearPadding k buf ∧ (packEvent ev).length = buf.length)

/-- R69, R109: two buffers that differ only in padding bits decode to the same result. -/
def Obligations.PaddingIgnored : Prop :=
  ∀ k b b', clearPadding k b = clearPadding k b' → decodeFrame k b = decodeFrame k b'

/-- R98: the size check comes first, and the kind alone decides the shape. -/
def Obligations.DecodeFrameByKind : Prop :=
  (∀ k n buf, frameLen k = some n → buf.length ≠ n → decodeFrame k buf = .error .sizeMismatch) ∧
  (∀ buf, buf.length = 7 →
    decodeFrame .touch0 buf = .ok (.touch (unpackTouchReport (slice buf 0 7)) none none)) ∧
  (∀ buf, buf.length = 17 →
    decodeFrame .touch1 buf =
      .ok (.touch (unpackTouchReport (slice buf 0 7)) (some (unpackTouchRecord (slice buf 7 17))) none)) ∧
  (∀ buf, buf.length = 27 →
    decodeFrame .touch2 buf =
      .ok (.touch (unpackTouchReport (slice buf 0 7)) (some (unpackTouchRecord (slice buf 7 17)))
        (some (unpackTouchRecord (slice buf 17 27))))) ∧
  (∀ buf, buf.length = 14 → decodeFrame .button buf = .ok (.button (unpackButtonRecord (slice buf 0 14))))

/-- R106, R122: no field value is checked. Every buffer of the kind's size decodes, to an event of the kind's shape. -/
def Obligations.OnlySizeIsChecked : Prop :=
  ∀ k n buf, frameLen k = some n → buf.length = n → ∃ ev, decodeFrame k buf = .ok ev ∧ eventKind ev = some k

/-! ## The kinds -/

/-- R93: `EMPTY` in a READ is `NoDataAvailable` with no frame read, in an OPEN it is success; only `02 00` is the sentinel. -/
def Obligations.EmptyMeaning : Prop :=
  (∀ s : State, s.phase = .readLen →
    exec .empty s = .next { s with lenLatch := 2, kindLatch := .empty, phase := .idle, busy := false,
                                   outbox := s.outbox ++ [.response (.err .noDataAvailable)] }) ∧
  (∀ s : State, s.phase = .openLen →
    exec .empty s = .next { s with lenLatch := 2, sess := .ready, phase := .idle, busy := false,
                                   outbox := s.outbox ++ [.response .openOk] }) ∧
  (∀ b0 b1 : Byte, decode (.frame [b0, b1]) = .ok .empty ↔ b0 = 0x02 ∧ b1 = 0x00)

/-- R96: `INVALID(v)` is every two bytes with an unrecognised value `v`. In a READ it is `InvalidMessageLen(v)` with no frame read; in
an OPEN it consumes an attempt, and the fifth is reported. -/
def Obligations.InvalidMeaning : Prop :=
  ∀ v : Word, (Instr.invalid v).wf = true →
    (∀ (b0 b1 : Byte) more, decode (.frame (b0 :: b1 :: more)) = .ok (.invalid v) ↔ b0.toNat + 256 * b1.toNat = v.toNat) ∧
    (∀ s : State, s.phase = .readLen →
      exec (.invalid v) s = .next { s with lenLatch := v, kindLatch := .invalid v, phase := .idle, busy := false,
                                           outbox := s.outbox ++ [.response (.err (.invalidMessageLen v))] }) ∧
    (∀ s : State, s.phase = .openLen → s.attempt < 5 →
      exec (.invalid v) s = .next { s with lenLatch := v, attempt := s.attempt + 1,
                                           outbox := s.outbox ++ [.request (.memRead 0x24 0 2)] }) ∧
    (∀ s : State, s.phase = .openLen → s.attempt = 5 →
      exec (.invalid v) s = .next { s with lenLatch := v, sess := .faulted, phase := .idle, busy := false,
                                           outbox := s.outbox ++ [.response (.err (.invalidMessageLen v))] })

/-- R103, R104, R105: the three touch kinds in a READ. -/
def Obligations.TouchKindsMeaning : Prop :=
  FrameMeaning .touch0 .touch0 7 (fun buf => .touch (unpackTouchReport (slice buf 0 7)) none none) ∧
  FrameMeaning .touch1 .touch1 17
    (fun buf => .touch (unpackTouchReport (slice buf 0 7)) (some (unpackTouchRecord (slice buf 7 17))) none) ∧
  FrameMeaning .touch2 .touch2 27
    (fun buf => .touch (unpackTouchReport (slice buf 0 7)) (some (unpackTouchRecord (slice buf 7 17)))
      (some (unpackTouchRecord (slice buf 17 27))))

/-- R121: the button kind in a READ. -/
def Obligations.ButtonMeaning : Prop :=
  FrameMeaning .button .button 14 (fun buf => .button (unpackButtonRecord (slice buf 0 14)))

/-- The model's choice, log 18, is that a kind has a meaning of its own in an OPEN: there the step runs OPEN, for which the kinds other than
`EMPTY` play no part (R92). What the meaning says is R132's: in a handshake a frame's length is not a frame to fetch; like every value other
than 2 it consumes an attempt, and the fifth faults the session and is reported. -/
def Obligations.FrameLengthsInHandshake : Prop :=
  ∀ k n, frameLen k = some n →
    (∀ s : State, s.phase = .openLen → s.attempt < 5 →
      exec (instrOfKind k) s = .next { s with lenLatch := BitVec.ofNat 16 n, attempt := s.attempt + 1,
                                              outbox := s.outbox ++ [.request (.memRead 0x24 0 2)] }) ∧
    (∀ s : State, s.phase = .openLen → s.attempt = 5 →
      exec (instrOfKind k) s =
        .next { s with lenLatch := BitVec.ofNat 16 n, sess := .faulted, phase := .idle, busy := false,
                       outbox := s.outbox ++ [.response (.err (.invalidMessageLen (BitVec.ofNat 16 n)))] })

/-- The model's choice, log 17 (R136 has no such row): a kind stops by name in a phase in which no length and no frame is read, and a kind
without a frame also where a frame is awaited. -/
def Obligations.KindsStopOutsideReads : Prop :=
  (∀ k (s : State), s.phase = .idle ∨ s.phase = .querySig ∨ s.phase = .readSig →
    exec (instrOfKind k) s = .refused .noFrameAwaited) ∧
  (∀ k (s : State), frameLen k = none → s.phase = .readFrame → exec (instrOfKind k) s = .refused .noFrameAwaited)

/-! ## The commands -/

/-- R136, first rows: an available command is accepted, `busy` is set and the first request goes out. -/
def Obligations.CommandsStart : Prop :=
  ∀ s : State, s.phase = .idle → s.busy = false →
    (s.sess = .uninitialized →
      exec .openCmd s = .next { s with busy := true, attempt := 1, phase := .openLen,
                                       outbox := s.outbox ++ [.request (.memRead 0x24 0 2)] }) ∧
    (s.sess = .ready →
      exec .queryCmd s = .next { s with busy := true, phase := .querySig, outbox := s.outbox ++ [.request .signalQuery] }) ∧
    (s.sess = .ready →
      exec .readCmd s = .next { s with busy := true, phase := .readSig, outbox := s.outbox ++ [.request .signalQuery] })

/-- R137: a command issued in a session state in which it is not available is refused, and nothing else changes. -/
def Obligations.WrongStateRefused : Prop :=
  ∀ s : State, s.phase = .idle → s.busy = false →
    (s.sess ≠ .uninitialized →
      exec .openCmd s = .next { s with outbox := s.outbox ++ [.response (.refused .wrongState)] }) ∧
    (s.sess ≠ .ready →
      exec .queryCmd s = .next { s with outbox := s.outbox ++ [.response (.refused .wrongState)] } ∧
      exec .readCmd s = .next { s with outbox := s.outbox ++ [.response (.refused .wrongState)] })

/-- R136, the rows of `OPEN_LEN`: what OPEN does with each answer to a length read. -/
def Obligations.HandshakeAnswers : Prop :=
  ∀ (s : State) rest, s.phase = .openLen →
    (∀ e, s.inbox = .bus (.busErr e) :: rest →
      exec .openCmd s = .next { s with inbox := rest, phase := .idle, busy := false,
                                       outbox := s.outbox ++ [.response (.err (.busError e))] }) ∧
    (∀ buf, s.inbox = .bus (.ok buf) :: rest → buf.length ≠ 2 →
      exec .openCmd s = .next { s with inbox := rest, phase := .idle, busy := false,
                                       outbox := s.outbox ++ [.response (.err .sizeMismatch)] }) ∧
    (∀ buf, s.inbox = .bus (.ok buf) :: rest → buf.length = 2 → le16 buf 0 = 2 →
      exec .openCmd s = .next { s with inbox := rest, lenLatch := 2, sess := .ready, phase := .idle, busy := false,
                                       outbox := s.outbox ++ [.response .openOk] }) ∧
    (∀ buf, s.inbox = .bus (.ok buf) :: rest → buf.length = 2 → le16 buf 0 ≠ 2 → s.attempt < 5 →
      exec .openCmd s = .next { s with inbox := rest, lenLatch := le16 buf 0, attempt := s.attempt + 1,
                                       outbox := s.outbox ++ [.request (.memRead 0x24 0 2)] }) ∧
    (∀ buf, s.inbox = .bus (.ok buf) :: rest → buf.length = 2 → le16 buf 0 ≠ 2 → s.attempt = 5 →
      exec .openCmd s = .next { s with inbox := rest, lenLatch := le16 buf 0, sess := .faulted, phase := .idle, busy := false,
                                       outbox := s.outbox ++ [.response (.err (.invalidMessageLen (le16 buf 0)))] })

/-- R136, the rows of `QUERY_SIG`: what QUERY does with each answer to its signal query. -/
def Obligations.QueryAnswers : Prop :=
  ∀ (s : State) rest, s.phase = .querySig →
    (∀ l, s.inbox = .sig (.line l) :: rest →
      exec .queryCmd s = .next { s with inbox := rest, phase := .idle, busy := false,
                                        outbox := s.outbox ++ [.response (.queryOk (l == .low))] }) ∧
    (∀ e, s.inbox = .sig (.ioErr e) :: rest →
      exec .queryCmd s = .next { s with inbox := rest, phase := .idle, busy := false,
                                        outbox := s.outbox ++ [.response (.err (.ioError e))] })

/-- R136, the rows of `READ_SIG` and the failures of `READ_LEN`: what READ does with each answer before it has a length. -/
def Obligations.ReadAnswers : Prop :=
  ∀ (s : State) rest,
    (s.phase = .readSig →
      (∀ e, s.inbox = .sig (.ioErr e) :: rest →
        exec .readCmd s = .next { s with inbox := rest, phase := .idle, busy := false,
                                         outbox := s.outbox ++ [.response (.err (.ioError e))] }) ∧
      (s.inbox = .sig (.line .high) :: rest →
        exec .readCmd s = .next { s with inbox := rest, phase := .idle, busy := false,
                                         outbox := s.outbox ++ [.response (.err .noDataAvailable)] }) ∧
      (s.inbox = .sig (.line .low) :: rest →
        exec .readCmd s = .next { s with inbox := rest, phase := .readLen,
                                         outbox := s.outbox ++ [.request (.memRead 0x24 0 2)] })) ∧
    (s.phase = .readLen →
      (∀ e, s.inbox = .bus (.busErr e) :: rest →
        exec .readCmd s = .next { s with inbox := rest, phase := .idle, busy := false,
                                         outbox := s.outbox ++ [.response (.err (.busError e))] }) ∧
      (∀ buf, s.inbox = .bus (.ok buf) :: rest → buf.length ≠ 2 →
        exec .readCmd s = .next { s with inbox := rest, phase := .idle, busy := false,
                                         outbox := s.outbox ++ [.response (.err .sizeMismatch)] }))

/-- R134, R136: a READ that has two bytes of length goes on as the kind they select; with the frame outstanding it goes on as the latched
kind. -/
def Obligations.ReadGoesOnAsItsKind : Prop :=
  (∀ (s : State) buf rest i, s.phase = .readLen → s.inbox = .bus (.ok buf) :: rest → buf.length = 2 →
    decode (.frame buf) = .ok i → exec .readCmd s = exec i { s with inbox := rest }) ∧
  (∀ s : State, s.phase = .readFrame → exec .readCmd s = exec (instrOfKind s.kindLatch) s)

/-- R133: QUERY from start to end, the line asserted at its low level. -/
def Obligations.QueryCommand : Prop :=
  ∀ (s : State) rest, s.phase = .idle → s.busy = false →
    (s.sess ≠ .ready → s.inbox = .command 1 :: rest →
      steps 1 s = .next { s with inbox := rest, outbox := s.outbox ++ [.response (.refused .wrongState)] }) ∧
    (s.sess = .ready → s.inbox = .command 1 :: .sig (.line .low) :: rest →
      steps 2 s = .next { s with inbox := rest, outbox := s.outbox ++ [.request .signalQuery, .response (.queryOk true)] }) ∧
    (s.sess = .ready → s.inbox = .command 1 :: .sig (.line .high) :: rest →
      steps 2 s = .next { s with inbox := rest, outbox := s.outbox ++ [.request .signalQuery, .response (.queryOk false)] }) ∧
    (∀ e, s.sess = .ready → s.inbox = .command 1 :: .sig (.ioErr e) :: rest →
      steps 2 s = .next { s with inbox := rest, outbox := s.outbox ++ [.request .signalQuery, .response (.err (.ioError e))] })

/-- R132: OPEN from start to end is the loop of the rule, on whatever the transport answers: its response, the session state it leaves, its one
to five length reads and nothing else. -/
def Obligations.OpenCommand : Prop :=
  ∀ (s : State), s.phase = .idle → s.busy = false →
    (∀ rest, s.sess ≠ .uninitialized → s.inbox = .command 0 :: rest →
      steps 1 s = .next { s with inbox := rest, outbox := s.outbox ++ [.response (.refused .wrongState)] }) ∧
    (∀ (answers : List BusAnswer) rest e, s.sess = .uninitialized →
      s.inbox = .command 0 :: (answers.map .bus ++ rest) → openLoop 1 s.lenLatch answers = some e →
      1 ≤ e.attempt ∧ e.attempt ≤ 5 ∧
      steps (1 + e.attempt) s =
        .next { s with sess := e.sess, attempt := e.attempt, lenLatch := e.lenLatch,
                       inbox := (answers.drop e.attempt).map .bus ++ rest,
                       outbox := s.outbox ++ List.replicate e.attempt (.request (.memRead 0x24 0 2)) ++ [.response e.response] })

/-- R134: READ from start to end is the pseudocode of the rule, on whatever the signal port and the transport answer: its response, its
requests in order, the registers it writes and the frame it stores. -/
def Obligations.ReadCommand : Prop :=
  ∀ (s : State), s.phase = .idle → s.busy = false →
    (∀ rest, s.sess ≠ .ready → s.inbox = .command 2 :: rest →
      steps 1 s = .next { s with inbox := rest, outbox := s.outbox ++ [.response (.refused .wrongState)] }) ∧
    (∀ (g : SigAnswer) (answers : List BusAnswer) rest e, s.sess = .ready →
      s.inbox = .command 2 :: .sig g :: (answers.map .bus ++ rest) → readCommand s g answers = some e →
      ∃ t, steps (2 + e.used) s = .next t ∧
        t = { s with lenLatch := e.lenLatch, kindLatch := e.kindLatch, frameCnt := e.frameCnt, frameBuf := t.frameBuf,
                     freeIdx := t.freeIdx, inbox := (answers.drop e.used).map .bus ++ rest,
                     outbox := s.outbox ++ e.requests.map .request ++ [.response e.response] } ∧
        (e.stored = none → t.frameBuf = s.frameBuf ∧ t.freeIdx = s.freeIdx) ∧
        ∀ buf, e.stored = some buf → ∀ j, j < buf.length → t.frameByte j = byteAt buf j)

/-- R200: every command that the environment answers in full leaves the block quiescent, having delivered its response. -/
def Obligations.AnsweredCommandsEnd : Prop :=
  ∀ (s : State) (answers : List BusAnswer) (g : SigAnswer) rest, s.Quiescent →
    (s.sess = .uninitialized → answers.length = 5 → s.inbox = .command 0 :: (answers.map .bus ++ rest) →
      ∃ k t, k ≤ 6 ∧ steps k s = .next t ∧ t.Quiescent ∧ ∃ out r, t.outbox = s.outbox ++ out ++ [.response r]) ∧
    (s.sess = .ready → s.inbox = .command 1 :: .sig g :: rest →
      ∃ k t, k ≤ 2 ∧ steps k s = .next t ∧ t.Quiescent ∧ ∃ out r, t.outbox = s.outbox ++ out ++ [.response r]) ∧
    (s.sess = .ready → answers.length = 2 → s.inbox = .command 2 :: .sig g :: (answers.map .bus ++ rest) →
      ∃ k t, k ≤ 4 ∧ steps k s = .next t ∧ t.Quiescent ∧ ∃ out r, t.outbox = s.outbox ++ out ++ [.response r])

/-! ## Frames: what an instruction leaves -/

/-- OPEN leaves `kind_latch`, every byte of `frame_buf`, `frame_cnt` and the free-value counter; its start also `sess`, `len_latch` and
`inbox`. -/
def Obligations.OpenFrame : Prop :=
  ∀ s t : State, exec .openCmd s = .next t →
    t.kindLatch = s.kindLatch ∧ t.frameCnt = s.frameCnt ∧ t.freeIdx = s.freeIdx ∧ (∀ a, t.frameByte a = s.frameByte a) ∧
    (s.phase = .idle → t.sess = s.sess ∧ t.lenLatch = s.lenLatch ∧ t.inbox = s.inbox) ∧
    ∃ o, t.outbox = s.outbox ++ [o]

/-- QUERY leaves every register but `busy` and `phase`. -/
def Obligations.QueryFrame : Prop :=
  ∀ s t : State, exec .queryCmd s = .next t →
    t.sess = s.sess ∧ t.attempt = s.attempt ∧ t.lenLatch = s.lenLatch ∧ t.kindLatch = s.kindLatch ∧ t.frameCnt = s.frameCnt ∧
    t.freeIdx = s.freeIdx ∧ (∀ a, t.frameByte a = s.frameByte a) ∧ (s.phase = .idle → t.inbox = s.inbox) ∧
    ∃ o, t.outbox = s.outbox ++ [o]

/-- READ leaves `sess` and `attempt`; it writes the latches only when it has the length, and `frame_cnt` and `frame_buf` only when it has the
frame, `frame_buf` only from an answer of the latched kind's size. -/
def Obligations.ReadFrame : Prop :=
  ∀ s t : State, exec .readCmd s = .next t →
    t.sess = s.sess ∧ t.attempt = s.attempt ∧
    (s.phase ≠ .readLen → t.lenLatch = s.lenLatch ∧ t.kindLatch = s.kindLatch) ∧
    (s.phase ≠ .readFrame → t.frameCnt = s.frameCnt) ∧
    (s.phase = .idle → t.inbox = s.inbox) ∧
    ((s.phase = .readFrame → ∀ buf rest, s.inbox = .bus (.ok buf) :: rest → frameLen s.kindLatch ≠ some buf.length) →
      t.freeIdx = s.freeIdx ∧ ∀ a, t.frameByte a = s.frameByte a) ∧
    ∃ o, t.outbox = s.outbox ++ [o]

/-- EMPTY and INVALID leave `frame_cnt`, every byte of `frame_buf`, the free-value counter and `inbox`; in a READ also `sess` and `attempt`,
in an OPEN (a meaning of their own there is the model's choice, log 18) also `kind_latch`. -/
def Obligations.EmptyInvalidFrame : Prop :=
  ∀ (i : Instr) (s t : State), (i = .empty ∨ ∃ v, i = .invalid v) → exec i s = .next t →
    t.frameCnt = s.frameCnt ∧ t.freeIdx = s.freeIdx ∧ t.inbox = s.inbox ∧ (∀ a, t.frameByte a = s.frameByte a) ∧
    (s.phase = .readLen → t.sess = s.sess ∧ t.attempt = s.attempt) ∧
    (s.phase = .openLen → t.kindLatch = s.kindLatch) ∧
    ∃ o, t.outbox = s.outbox ++ [o]

/-- TOUCH0, TOUCH1, TOUCH2 and BUTTON: asking for the frame writes only the latches, `phase` and `outbox`; receiving it leaves `sess`,
`attempt` and the latches, and every byte of `frame_buf` unless the answer has the kind's size; in an OPEN (a
meaning of their own there is the model's choice, log 18) `kind_latch`, `frame_cnt` and `frame_buf` are left. -/
def Obligations.FrameKindsFrame : Prop :=
  ∀ k n (s t : State), frameLen k = some n → exec (instrOfKind k) s = .next t →
    (s.phase = .readLen → t.sess = s.sess ∧ t.busy = s.busy ∧ t.attempt = s.attempt ∧ t.inbox = s.inbox) ∧
    (s.phase = .readFrame → t.sess = s.sess ∧ t.attempt = s.attempt ∧ t.lenLatch = s.lenLatch ∧ t.kindLatch = s.kindLatch) ∧
    (s.phase = .openLen → t.kindLatch = s.kindLatch ∧ t.inbox = s.inbox) ∧
    (s.phase ≠ .readFrame → t.frameCnt = s.frameCnt) ∧
    ((s.phase = .readFrame → ∀ buf rest, s.inbox = .bus (.ok buf) :: rest → buf.length ≠ n) →
      t.freeIdx = s.freeIdx ∧ ∀ a, t.frameByte a = s.frameByte a) ∧
    ∃ o, t.outbox = s.outbox ++ [o]

/-! ## The step -/

/-- Which instruction a step in a waiting phase is attributed to is the model's choice, log 18; what the step does is R136's
(`StepIsTheTransitionTable`). A step runs the instruction that was decoded: a command from the host port, a kind from the
two bytes of a length read, and in a waiting phase the instruction in progress. -/
def Obligations.StepRunsDecodedInstruction : Prop :=
  (∀ (s : State) code rest i, s.inbox = .command code :: rest → decode (.command code) = .ok i → s.phase = .idle →
    s.busy = false → step s = exec i { s with inbox := rest }) ∧
  (∀ (s : State) buf rest i, s.inbox = .bus (.ok buf) :: rest → s.phase = .readLen → buf.length = 2 →
    decode (.frame buf) = .ok i → step s = exec i { s with inbox := rest }) ∧
  (∀ s : State, (∀ rest, s.inbox ≠ .reset :: rest) → (∀ code rest, s.inbox ≠ .command code :: rest) →
    (s.phase = .openLen → step s = exec .openCmd s) ∧
    (s.phase = .querySig → step s = exec .queryCmd s) ∧
    (s.phase = .readSig → step s = exec .readCmd s) ∧
    (s.phase = .readLen → (∀ buf rest, s.inbox = .bus (.ok buf) :: rest → buf.length ≠ 2) → step s = exec .readCmd s) ∧
    (s.phase = .readFrame → step s = exec (instrOfKind s.kindLatch) s))

/-- R136: on every event of the table, from every state that meets the invariant, the step makes exactly the move of the table's row; in
every phase other than `IDLE` a request is outstanding, and without an answer to it there is no step. -/
def Obligations.StepIsTheTransitionTable : Prop :=
  (∀ (s t : State) e rest, s.Inv → s.inbox = e :: rest → s.TableEvent e →
    (step s = .next t ↔ Row { s with inbox := rest } e t)) ∧
  (∀ s : State, s.Inv → s.phase ≠ .idle → s.awaited.isSome = true ∧ (s.inbox = [] → ∀ t, step s ≠ .next t))

/-- R32, R190: what reset leaves, in `State.reset` and after the reset input; reset is the only way out of `Ready` and of `Faulted`. The other
five registers are unspecified: nothing is stated of them. -/
def Obligations.ResetStateRegisters : Prop :=
  State.reset.sess = .uninitialized ∧ State.reset.busy = false ∧ State.reset.phase = .idle ∧
  (∀ (s : State) rest, s.inbox = .reset :: rest →
    ∃ t, step s = .next t ∧ t.sess = .uninitialized ∧ t.busy = false ∧ t.phase = .idle) ∧
  (∀ s t : State, s.Inv → s.sess = .ready ∨ s.sess = .faulted → step s = .next t →
    t.sess = s.sess ∨ ∃ rest, s.inbox = .reset :: rest)

/-- R191: reset abandons the command in progress, with no response for it, and the answer to its request, arriving in `IDLE`, changes
nothing. -/
def Obligations.ResetAbandonsCommand : Prop :=
  (∀ (s : State) rest, s.inbox = .reset :: rest → s.busy = true →
    ∃ t, step s = .next t ∧ t.Quiescent ∧ t.sess = .uninitialized ∧ t.outbox = s.outbox ∧ t.inbox = rest) ∧
  (∀ (s : State) rest, s.phase = .idle → (∃ a, s.inbox = .bus a :: rest) ∨ (∃ a, s.inbox = .sig a :: rest) →
    step s = .next { s with inbox := rest })

/-- R174, and the model's choice of log 10: an idle block to which nothing happens does nothing. -/
def Obligations.IdleBlockDoesNothing : Prop :=
  ∀ s : State, s.phase = .idle → s.inbox = [] → step s = .next s

/-- R196: a request that is never answered leaves the block without a next step, by the named fault of the port it waits on; reset ends the
wait. -/
def Obligations.UnansweredRequestIsStuck : Prop :=
  ∀ s : State, s.Inv → s.phase ≠ .idle →
    (s.inbox = [] → step s = .fault (if s.awaited = some .signalQuery then .signalSilent else .transportSilent)) ∧
    (∀ rest, s.inbox = .reset :: rest → ∃ t, step s = .next t ∧ t.Quiescent)

/-- R72, U12, and the model's choice of log 14: code 3 has no response and no effect. -/
def Obligations.CodeThreeHasNoEffect : Prop :=
  ∀ (s : State) rest, s.inbox = .command 3 :: rest → step s = .next { s with inbox := rest }

/-- R194, U6, and the model's choices of log 11 and log 13: a second command, and an answer on the port that is not awaited, stop by
name. -/
def Obligations.UnsolicitedMovesStop : Prop :=
  (∀ (s : State) code rest, s.inbox = .command code :: rest → code ≠ 3 → s.phase ≠ .idle →
    step s = .refused .commandWhileBusy) ∧
  (∀ (s : State) a rest, s.Inv → s.inbox = .sig a :: rest → s.phase = .openLen ∨ s.phase = .readLen ∨ s.phase = .readFrame →
    step s = .refused .answerNotAwaited) ∧
  (∀ (s : State) a rest, s.inbox = .bus a :: rest → s.phase = .querySig ∨ s.phase = .readSig →
    step s = .refused .answerNotAwaited)

/-! ## The whole machine -/

/-- The invariant of the sequencer holds at reset. -/
def Obligations.ResetMeetsInvariant : Prop := State.reset.Inv

/-- Every step keeps the invariant of the sequencer: `busy` is 0 exactly in `IDLE`, a command runs only in the session state in which it is
available, `attempt` stays 1 to 5, the latched kind is that of the latched length while a frame is awaited, and in a waiting phase
the last thing the block did was to issue the request it waits for. -/
def Obligations.StepKeepsInvariant : Prop :=
  ∀ s t : State, s.Inv → step s = .next t → t.Inv

/-- R41, R42: a step puts at most one output on the interfaces; every exchange is addressed to `0x24`, writes no byte and reads 2, 7, 14, 17 or
27 bytes; `InvalidMessageLen` never carries 2; an event has the shape of a frame. -/
def Obligations.OutputsAreLegal : Prop :=
  ∀ s t : State, step s = .next t → t.outbox = s.outbox ∨ ∃ o, o.Legal ∧ t.outbox = s.outbox ++ [o]

/-- R42, R48: the only bytes the block causes to be placed on the bus are those with which the transport addresses `0x24`, in whatever format
`ADDR_FORMAT` is (the model's choice, log 16: a function from the integer to bytes), once for each exchange. -/
def Obligations.OnlyAddressingOnTheBus : Prop :=
  ∀ s t : State, step s = .next t →
    (∃ n, t.outbox = s.outbox ++ [.request (.memRead 0x24 0 n)] ∧ t.busTraffic = s.busTraffic ++ Config.addrFormat 0x24) ∨
    ((∀ addr w n, t.outbox ≠ s.outbox ++ [.request (.memRead addr w n)]) ∧ t.busTraffic = s.busTraffic)

/-- R22: the only transitions of `sess`. -/
def Obligations.SessionTransitions : Prop :=
  ∀ s t : State, s.Inv → step s = .next t →
    t.sess = s.sess ∨
    (t.sess = .uninitialized ∧ ∃ rest, s.inbox = .reset :: rest) ∨
    (s.sess = .uninitialized ∧ s.phase = .openLen ∧ t.sess = .ready ∧ t.outbox = s.outbox ++ [.response .openOk]) ∨
    (s.sess = .uninitialized ∧ s.phase = .openLen ∧ t.sess = .faulted ∧
      ∃ v, t.outbox = s.outbox ++ [.response (.err (.invalidMessageLen v))])

/-- R169: the state after an error or a refusal. -/
def Obligations.StateAfterError : Prop :=
  ∀ s t : State, s.Inv → step s = .next t →
    (∀ e, t.outbox = s.outbox ++ [.response (.err e)] →
      t.phase = .idle ∧ t.busy = false ∧
      t.sess = if s.phase = .openLen ∧ ∃ v, e = .invalidMessageLen v then .faulted else s.sess) ∧
    (∀ w, t.outbox = s.outbox ++ [.response (.refused w)] → t.phase = .idle ∧ t.busy = false ∧ t.sess = s.sess)

/-- R135: the responses each command can deliver. -/
def Obligations.ResponsesOfCommands : Prop :=
  ∀ (s t : State) r, step s = .next t → t.outbox = s.outbox ++ [.response r] → phaseResponses s.phase r

/-- R130: of a command in progress every step either delivers its one response and clears `busy`, or issues one more request; the only other
moves are reset and a code that is no command. -/
def Obligations.CommandEndsWithOneResponse : Prop :=
  ∀ s t : State, s.Inv → s.busy = true → step s = .next t →
    (t.busy = false ∧ ∃ r, t.outbox = s.outbox ++ [.response r]) ∨
    (t.busy = true ∧ ∃ q, t.outbox = s.outbox ++ [.request q]) ∨
    (t.busy = false ∧ t.outbox = s.outbox ∧ ∃ rest, s.inbox = .reset :: rest) ∨
    (∃ rest, s.inbox = .command 3 :: rest ∧ t = { s with inbox := rest })

/-- R53, R165: where the transport answers every exchange with as many bytes as were asked for, `SizeMismatch` is never raised. -/
def Obligations.FullAnswersNeverMismatch : Prop :=
  ∀ s t : State, s.Inv →
    (∀ buf rest a w n, s.inbox = .bus (.ok buf) :: rest → s.awaited = some (.memRead a w n) → buf.length = n) →
    step s = .next t → t.outbox ≠ s.outbox ++ [.response (.err .sizeMismatch)]

/-- R23: no value of a working register survives from one command into the next in any way a host can observe. Two states that agree on
everything but working registers that are out of use run alike for ever: the same outputs, stops and session states. -/
def Obligations.WorkingRegistersUnobservable : Prop :=
  ∀ (n : Nat) (s t : State), s.Alike t → OutcomesAlike (steps n s) (steps n t)

/-- R161, R163, D24: the error information of the transport and of the signal port is passed through untouched and never looked at: renaming
its codes, in any way, renames them in the outcome and changes nothing else. -/
def Obligations.ErrorTokensPassThrough : Prop :=
  ∀ (m : Relabel) (s : State), step (m.state s) = m.outcome (step s)

/-- R160: the codes of a numeric response port. -/
def Obligations.ResponseCodes : Prop :=
  (∀ e, (Response.err (.busError e)).code = 1) ∧ (∀ v, (Response.err (.invalidMessageLen v)).code = 2) ∧
  (∀ e, (Response.err (.ioError e)).code = 3) ∧ (Response.err .noDataAvailable).code = 4 ∧
  (Response.err .sizeMismatch).code = 5 ∧ (Response.refused .wrongState).code = 6 ∧
  ∀ r : Response, r.code = 0 ↔ (r = .openOk ∨ (∃ a, r = .queryOk a) ∨ ∃ ev, r = .readOk ev)
end

