-- ==== Sys2Proof/Laws/Decode.lean ====
section
/-! SUPPORT. The small lemmas of bytes, words, the classifier and the decoder. -/

namespace Sys2Proof

open Sys2Proof.Machine

/-! ## Bytes and words -/

@[simp] theorem byteAt_cons_zero (b : Byte) (bs : List Byte) : byteAt (b :: bs) 0 = b := rfl

@[simp] theorem byteAt_cons_succ (b : Byte) (bs : List Byte) (i : Nat) : byteAt (b :: bs) (i + 1) = byteAt bs i := rfl

theorem byteAt_eq_getElem {b : List Byte} {i : Nat} (h : i < b.length) : byteAt b i = b[i] := by
  simp [byteAt, h]

@[simp] theorem loByte_le16 (b : List Byte) (i : Nat) : loByte (le16 b i) = byteAt b i := by
  apply BitVec.eq_of_toNat_eq
  have h0 := (byteAt b i).isLt
  have h1 := (byteAt b (i + 1)).isLt
  simp [loByte, le16]
  omega

@[simp] theorem hiByte_le16 (b : List Byte) (i : Nat) : hiByte (le16 b i) = byteAt b (i + 1) := by
  apply BitVec.eq_of_toNat_eq
  have h0 := (byteAt b i).isLt
  have h1 := (byteAt b (i + 1)).isLt
  simp [hiByte, le16, Nat.shiftRight_eq_div_pow]
  omega

/-- Splitting a word into its bytes and assembling them gives it back, wherever the two bytes stand. -/
theorem le16_of_bytes {b : List Byte} {i : Nat} {v : Word} (h0 : byteAt b i = loByte v) (h1 : byteAt b (i + 1) = hiByte v) :
    le16 b i = v := by
  apply BitVec.eq_of_toNat_eq
  have hv := v.isLt
  simp [le16, h0, h1, loByte, hiByte, Nat.shiftRight_eq_div_pow]
  omega

@[simp] theorem le16_prefixBytes (v : Word) : le16 (prefixBytes v) 0 = v := le16_of_bytes rfl rfl

/-! ## The classifier -/

/-- What `classify` can answer: one of the five lengths, or `INVALID` of a well-formed operand. -/
theorem classify_cases (v : Word) :
    (v = 2 ∧ classify v = .empty) ∨ (v = 7 ∧ classify v = .touch0) ∨ (v = 14 ∧ classify v = .button) ∨
    (v = 17 ∧ classify v = .touch1) ∨ (v = 27 ∧ classify v = .touch2) ∨
    ((v ≠ 2 ∧ v ≠ 7 ∧ v ≠ 14 ∧ v ≠ 17 ∧ v ≠ 27) ∧ classify v = .invalid v) := by
  unfold classify
  split_ifs <;> simp_all

theorem wf_invalid_iff (v : Word) :
    (Instr.invalid v).wf = true ↔ v ≠ 2 ∧ v ≠ 7 ∧ v ≠ 14 ∧ v ≠ 17 ∧ v ≠ 27 := by
  simp [Instr.wf, recognisedLengths]

theorem classify_of_wf {v : Word} (h : (Instr.invalid v).wf = true) : classify v = .invalid v := by
  obtain ⟨h2, h7, h14, h17, h27⟩ := (wf_invalid_iff v).1 h
  unfold classify
  rw [if_neg h2, if_neg h7, if_neg h14, if_neg h17, if_neg h27]

theorem instrOfKind_classify_wf (v : Word) : (instrOfKind (classify v)).wf = true := by
  obtain ⟨_, h⟩ | ⟨_, h⟩ | ⟨_, h⟩ | ⟨_, h⟩ | ⟨_, h⟩ | ⟨hv, h⟩ := classify_cases v <;> rw [h]
  all_goals first | rfl | exact (wf_invalid_iff v).2 hv

/-- A frame is at most 27 bytes, as many as its length says. -/
theorem frameLen_classify {v : Word} {n : Nat} (h : frameLen (classify v) = some n) : n = v.toNat ∧ n ≤ 27 := by
  obtain ⟨rfl, h'⟩ | ⟨rfl, h'⟩ | ⟨rfl, h'⟩ | ⟨rfl, h'⟩ | ⟨rfl, h'⟩ | ⟨_, h'⟩ := classify_cases v <;>
    rw [h'] at h <;> simp [frameLen] at h <;> subst h <;> decide

/-! ## The decoder -/

@[simp] theorem decode_frame_pair (b0 b1 : Byte) (rest : List Byte) :
    decode (.frame (b0 :: b1 :: rest)) = .ok (instrOfKind (classify (le16 [b0, b1] 0))) := rfl

theorem decode_prefixBytes (v : Word) : decode (.frame (prefixBytes v)) = .ok (instrOfKind (classify v)) := by
  rw [prefixBytes, decode_frame_pair]
  exact congrArg (fun w => Except.ok (instrOfKind (classify w))) (le16_prefixBytes v)

theorem decodeCommand_cases (c : BitVec 2) :
    (c = 0 ∧ decodeCommand c = .ok .openCmd) ∨ (c = 1 ∧ decodeCommand c = .ok .queryCmd) ∨
    (c = 2 ∧ decodeCommand c = .ok .readCmd) ∨ (c = 3 ∧ decodeCommand c = .error .notACommand) := by
  revert c; decide

/-- The buffer of a length read that is a length prefix is two bytes. -/
theorem length_eq_two {buf : List Byte} (h : buf.length = 2) : ∃ b0 b1, buf = [b0, b1] :=
  List.length_eq_two.1 h

end Sys2Proof

namespace Sys2Proof.Machine

/-! ## The frame decoder -/

theorem sized_ok {n : Nat} {f : List Byte → Event} {buf : List Byte} (h : buf.length = n) :
    sized n f buf = .ok (f buf) := by simp [sized, h]

theorem sized_error {n : Nat} {f : List Byte → Event} {buf : List Byte} (h : buf.length ≠ n) :
    sized n f buf = .error .sizeMismatch := by simp [sized, h]

/-- What `decodeFrame` can answer on a kind with a frame: an event of that kind's shape when the size is right, `sizeMismatch`
otherwise. -/
theorem decodeFrame_cases {k : Kind} {n : Nat} (hk : frameLen k = some n) (buf : List Byte) :
    (buf.length = n ∧ ∃ ev, decodeFrame k buf = .ok ev ∧ eventKind ev = some k) ∨
    (buf.length ≠ n ∧ decodeFrame k buf = .error .sizeMismatch) := by
  by_cases h : buf.length = n
  · refine .inl ⟨h, ?_⟩
    cases k <;> simp [frameLen] at hk <;> subst hk <;>
      exact ⟨_, sized_ok h, by simp [touch0Event, touch1Event, touch2Event, buttonEvent, eventKind]⟩
  · refine .inr ⟨h, ?_⟩
    cases k <;> simp [frameLen] at hk <;> subst hk <;> exact sized_error h

end Sys2Proof.Machine
end

