-- ==== Sys2Proof/Laws/State.lean ====
section
/-! SUPPORT. One lemma per field per update of the state: what each operation writes and what it leaves. -/

namespace Sys2Proof.Machine

variable (s : State)

/-! ## setBusy -/

@[simp] theorem setBusy_sess : (setBusy s).sess = s.sess := rfl
@[simp] theorem setBusy_busy : (setBusy s).busy = true := rfl
@[simp] theorem setBusy_phase : (setBusy s).phase = s.phase := rfl
@[simp] theorem setBusy_attempt : (setBusy s).attempt = s.attempt := rfl
@[simp] theorem setBusy_lenLatch : (setBusy s).lenLatch = s.lenLatch := rfl
@[simp] theorem setBusy_kindLatch : (setBusy s).kindLatch = s.kindLatch := rfl
@[simp] theorem setBusy_frameBuf : (setBusy s).frameBuf = s.frameBuf := rfl
@[simp] theorem setBusy_frameCnt : (setBusy s).frameCnt = s.frameCnt := rfl
@[simp] theorem setBusy_inbox : (setBusy s).inbox = s.inbox := rfl
@[simp] theorem setBusy_outbox : (setBusy s).outbox = s.outbox := rfl
@[simp] theorem setBusy_freeIdx : (setBusy s).freeIdx = s.freeIdx := rfl

/-! ## clearBusy -/

@[simp] theorem clearBusy_sess : (clearBusy s).sess = s.sess := rfl
@[simp] theorem clearBusy_busy : (clearBusy s).busy = false := rfl
@[simp] theorem clearBusy_phase : (clearBusy s).phase = s.phase := rfl
@[simp] theorem clearBusy_attempt : (clearBusy s).attempt = s.attempt := rfl
@[simp] theorem clearBusy_lenLatch : (clearBusy s).lenLatch = s.lenLatch := rfl
@[simp] theorem clearBusy_kindLatch : (clearBusy s).kindLatch = s.kindLatch := rfl
@[simp] theorem clearBusy_frameBuf : (clearBusy s).frameBuf = s.frameBuf := rfl
@[simp] theorem clearBusy_frameCnt : (clearBusy s).frameCnt = s.frameCnt := rfl
@[simp] theorem clearBusy_inbox : (clearBusy s).inbox = s.inbox := rfl
@[simp] theorem clearBusy_outbox : (clearBusy s).outbox = s.outbox := rfl
@[simp] theorem clearBusy_freeIdx : (clearBusy s).freeIdx = s.freeIdx := rfl

/-! ## latchLen -/

@[simp] theorem latchLen_sess (v : Word) : (latchLen v s).sess = s.sess := rfl
@[simp] theorem latchLen_busy (v : Word) : (latchLen v s).busy = s.busy := rfl
@[simp] theorem latchLen_phase (v : Word) : (latchLen v s).phase = s.phase := rfl
@[simp] theorem latchLen_attempt (v : Word) : (latchLen v s).attempt = s.attempt := rfl
@[simp] theorem latchLen_lenLatch (v : Word) : (latchLen v s).lenLatch = v := rfl
@[simp] theorem latchLen_kindLatch (v : Word) : (latchLen v s).kindLatch = s.kindLatch := rfl
@[simp] theorem latchLen_frameBuf (v : Word) : (latchLen v s).frameBuf = s.frameBuf := rfl
@[simp] theorem latchLen_frameCnt (v : Word) : (latchLen v s).frameCnt = s.frameCnt := rfl
@[simp] theorem latchLen_inbox (v : Word) : (latchLen v s).inbox = s.inbox := rfl
@[simp] theorem latchLen_outbox (v : Word) : (latchLen v s).outbox = s.outbox := rfl
@[simp] theorem latchLen_freeIdx (v : Word) : (latchLen v s).freeIdx = s.freeIdx := rfl

/-! ## latchKind -/

@[simp] theorem latchKind_sess (k : Kind) : (latchKind k s).sess = s.sess := rfl
@[simp] theorem latchKind_busy (k : Kind) : (latchKind k s).busy = s.busy := rfl
@[simp] theorem latchKind_phase (k : Kind) : (latchKind k s).phase = s.phase := rfl
@[simp] theorem latchKind_attempt (k : Kind) : (latchKind k s).attempt = s.attempt := rfl
@[simp] theorem latchKind_lenLatch (k : Kind) : (latchKind k s).lenLatch = s.lenLatch := rfl
@[simp] theorem latchKind_kindLatch (k : Kind) : (latchKind k s).kindLatch = k := rfl
@[simp] theorem latchKind_frameBuf (k : Kind) : (latchKind k s).frameBuf = s.frameBuf := rfl
@[simp] theorem latchKind_frameCnt (k : Kind) : (latchKind k s).frameCnt = s.frameCnt := rfl
@[simp] theorem latchKind_inbox (k : Kind) : (latchKind k s).inbox = s.inbox := rfl
@[simp] theorem latchKind_outbox (k : Kind) : (latchKind k s).outbox = s.outbox := rfl
@[simp] theorem latchKind_freeIdx (k : Kind) : (latchKind k s).freeIdx = s.freeIdx := rfl

/-! ## request -/

@[simp] theorem request_sess (r : Request) (p : Phase) : (request r p s).sess = s.sess := rfl
@[simp] theorem request_busy (r : Request) (p : Phase) : (request r p s).busy = s.busy := rfl
@[simp] theorem request_phase (r : Request) (p : Phase) : (request r p s).phase = p := rfl
@[simp] theorem request_attempt (r : Request) (p : Phase) : (request r p s).attempt = s.attempt := rfl
@[simp] theorem request_lenLatch (r : Request) (p : Phase) : (request r p s).lenLatch = s.lenLatch := rfl
@[simp] theorem request_kindLatch (r : Request) (p : Phase) : (request r p s).kindLatch = s.kindLatch := rfl
@[simp] theorem request_frameBuf (r : Request) (p : Phase) : (request r p s).frameBuf = s.frameBuf := rfl
@[simp] theorem request_frameCnt (r : Request) (p : Phase) : (request r p s).frameCnt = s.frameCnt := rfl
@[simp] theorem request_inbox (r : Request) (p : Phase) : (request r p s).inbox = s.inbox := rfl
@[simp] theorem request_outbox (r : Request) (p : Phase) : (request r p s).outbox = s.outbox ++ [.request r] := rfl
@[simp] theorem request_freeIdx (r : Request) (p : Phase) : (request r p s).freeIdx = s.freeIdx := rfl

/-! ## respond -/

@[simp] theorem respond_sess (r : Response) : (respond r s).sess = s.sess := rfl
@[simp] theorem respond_busy (r : Response) : (respond r s).busy = false := rfl
@[simp] theorem respond_phase (r : Response) : (respond r s).phase = .idle := rfl
@[simp] theorem respond_attempt (r : Response) : (respond r s).attempt = s.attempt := rfl
@[simp] theorem respond_lenLatch (r : Response) : (respond r s).lenLatch = s.lenLatch := rfl
@[simp] theorem respond_kindLatch (r : Response) : (respond r s).kindLatch = s.kindLatch := rfl
@[simp] theorem respond_frameBuf (r : Response) : (respond r s).frameBuf = s.frameBuf := rfl
@[simp] theorem respond_frameCnt (r : Response) : (respond r s).frameCnt = s.frameCnt := rfl
@[simp] theorem respond_inbox (r : Response) : (respond r s).inbox = s.inbox := rfl
@[simp] theorem respond_outbox (r : Response) : (respond r s).outbox = s.outbox ++ [.response r] := rfl
@[simp] theorem respond_freeIdx (r : Response) : (respond r s).freeIdx = s.freeIdx := rfl

/-! ## raiseErr -/

@[simp] theorem raiseErr_sess (e : ErrorKind) : (raiseErr e s).sess = sessAfter s.phase e s.sess := rfl
@[simp] theorem raiseErr_busy (e : ErrorKind) : (raiseErr e s).busy = false := rfl
@[simp] theorem raiseErr_phase (e : ErrorKind) : (raiseErr e s).phase = .idle := rfl
@[simp] theorem raiseErr_attempt (e : ErrorKind) : (raiseErr e s).attempt = s.attempt := rfl
@[simp] theorem raiseErr_lenLatch (e : ErrorKind) : (raiseErr e s).lenLatch = s.lenLatch := rfl
@[simp] theorem raiseErr_kindLatch (e : ErrorKind) : (raiseErr e s).kindLatch = s.kindLatch := rfl
@[simp] theorem raiseErr_frameBuf (e : ErrorKind) : (raiseErr e s).frameBuf = s.frameBuf := rfl
@[simp] theorem raiseErr_frameCnt (e : ErrorKind) : (raiseErr e s).frameCnt = s.frameCnt := rfl
@[simp] theorem raiseErr_inbox (e : ErrorKind) : (raiseErr e s).inbox = s.inbox := rfl
@[simp] theorem raiseErr_outbox (e : ErrorKind) : (raiseErr e s).outbox = s.outbox ++ [.response (.err e)] := rfl
@[simp] theorem raiseErr_freeIdx (e : ErrorKind) : (raiseErr e s).freeIdx = s.freeIdx := rfl

/-! ## refuse -/

@[simp] theorem refuse_sess : (refuse s).sess = s.sess := rfl
@[simp] theorem refuse_busy : (refuse s).busy = s.busy := rfl
@[simp] theorem refuse_phase : (refuse s).phase = s.phase := rfl
@[simp] theorem refuse_attempt : (refuse s).attempt = s.attempt := rfl
@[simp] theorem refuse_lenLatch : (refuse s).lenLatch = s.lenLatch := rfl
@[simp] theorem refuse_kindLatch : (refuse s).kindLatch = s.kindLatch := rfl
@[simp] theorem refuse_frameBuf : (refuse s).frameBuf = s.frameBuf := rfl
@[simp] theorem refuse_frameCnt : (refuse s).frameCnt = s.frameCnt := rfl
@[simp] theorem refuse_inbox : (refuse s).inbox = s.inbox := rfl
@[simp] theorem refuse_outbox : (refuse s).outbox = s.outbox ++ [.response (.refused .wrongState)] := rfl
@[simp] theorem refuse_freeIdx : (refuse s).freeIdx = s.freeIdx := rfl

/-! ## storeFrame -/

@[simp] theorem storeFrame_sess (buf : List Byte) : (storeFrame buf s).sess = s.sess := rfl
@[simp] theorem storeFrame_busy (buf : List Byte) : (storeFrame buf s).busy = s.busy := rfl
@[simp] theorem storeFrame_phase (buf : List Byte) : (storeFrame buf s).phase = s.phase := rfl
@[simp] theorem storeFrame_attempt (buf : List Byte) : (storeFrame buf s).attempt = s.attempt := rfl
@[simp] theorem storeFrame_lenLatch (buf : List Byte) : (storeFrame buf s).lenLatch = s.lenLatch := rfl
@[simp] theorem storeFrame_kindLatch (buf : List Byte) : (storeFrame buf s).kindLatch = s.kindLatch := rfl
@[simp] theorem storeFrame_frameBuf (buf : List Byte) : (storeFrame buf s).frameBuf = storedBytes buf s.freeIdx := rfl
@[simp] theorem storeFrame_frameCnt (buf : List Byte) : (storeFrame buf s).frameCnt = s.frameCnt := rfl
@[simp] theorem storeFrame_inbox (buf : List Byte) : (storeFrame buf s).inbox = s.inbox := rfl
@[simp] theorem storeFrame_outbox (buf : List Byte) : (storeFrame buf s).outbox = s.outbox := rfl
@[simp] theorem storeFrame_freeIdx (buf : List Byte) : (storeFrame buf s).freeIdx = s.freeIdx + 27 := rfl

/-! ## resetBlock -/

@[simp] theorem resetBlock_sess : (resetBlock s).sess = .uninitialized := rfl
@[simp] theorem resetBlock_busy : (resetBlock s).busy = false := rfl
@[simp] theorem resetBlock_phase : (resetBlock s).phase = .idle := rfl
@[simp] theorem resetBlock_attempt : (resetBlock s).attempt = (Config.freeAttempt s.freeIdx).val + 1 := rfl
@[simp] theorem resetBlock_lenLatch : (resetBlock s).lenLatch = Config.freeWord s.freeIdx := rfl
@[simp] theorem resetBlock_kindLatch : (resetBlock s).kindLatch = Config.freeKind s.freeIdx := rfl
@[simp] theorem resetBlock_frameBuf : (resetBlock s).frameBuf = freeBytes s.freeIdx := rfl
@[simp] theorem resetBlock_frameCnt : (resetBlock s).frameCnt = Config.freeCount s.freeIdx := rfl
@[simp] theorem resetBlock_inbox : (resetBlock s).inbox = s.inbox := rfl
@[simp] theorem resetBlock_outbox : (resetBlock s).outbox = s.outbox := rfl
@[simp] theorem resetBlock_freeIdx : (resetBlock s).freeIdx = s.freeIdx + 27 := rfl

end Sys2Proof.Machine
end

