-- ==== Sys2Proof/Laws/Ops.lean ====
section
/-! SUPPORT. For each shared operation one lemma that says everything it can do, for the provers to cite instead of unfolding it. -/

namespace Sys2Proof.Machine

/-! ## The frame buffer -/

theorem toList_storedBytes_take {buf : List Byte} {k : Nat} (h : buf.length ≤ 27) :
    (storedBytes buf k).toList.take buf.length = buf := by
  apply List.ext_getElem
  · simp [h]
  · intro i h1 h2
    simp [storedBytes, h2, byteAt_eq_getElem]

/-- Reading back the frame that was stored gives it (R54). -/
theorem frame_storeFrame {buf : List Byte} {s : State} (h : buf.length ≤ 27) :
    (storeFrame buf s).frame buf.length = buf := toList_storedBytes_take h

/-- The bytes of the stored frame stand at their indices (R54). -/
theorem frameByte_storeFrame {buf : List Byte} {s : State} {i : Nat} (h : buf.length ≤ 27) (hi : i < buf.length) :
    (storeFrame buf s).frameByte i = byteAt buf i := by
  have hi' : i < 27 := by omega
  simp [State.frameByte, byteAt, storedBytes, hi, hi']

/-! ## The bus -/

@[simp] theorem busBytes_memRead (n : Nat) : (Output.request (memRead n)).busBytes = Config.addrFormat 0x24 := rfl
@[simp] theorem busBytes_signalQuery : (Output.request .signalQuery).busBytes = [] := rfl
@[simp] theorem busBytes_response (r : Response) : (Output.response r).busBytes = [] := rfl

theorem busTraffic_same {s t : State} (h : t.outbox = s.outbox) : t.busTraffic = s.busTraffic := by
  simp [State.busTraffic, h]

theorem busTraffic_append {s t : State} {o : Output} (h : t.outbox = s.outbox ++ [o]) :
    t.busTraffic = s.busTraffic ++ o.busBytes := by
  simp [State.busTraffic, h]

/-! ## Acceptance -/

/-- Everything the acceptance of a command can answer. -/
theorem accept_cases {av : Bool} {start : State → State} {s : State} :
    (s.busy = true ∧ accept av start s = .refused .commandWhileBusy) ∨
    (s.busy = false ∧ av = true ∧ accept av start s = .next (start (setBusy s))) ∨
    (s.busy = false ∧ av = false ∧ accept av start s = .next (refuse s)) := by
  unfold accept
  cases hb : s.busy <;> cases av <;> simp

theorem accept_start {av : Bool} {start : State → State} {s : State} (hb : s.busy = false) (ha : av = true) :
    accept av start s = .next (start (setBusy s)) := by simp [accept, hb, ha]

theorem accept_refuse {av : Bool} {start : State → State} {s : State} (hb : s.busy = false) (ha : av = false) :
    accept av start s = .next (refuse s) := by simp [accept, hb, ha]

/-! ## Answers -/

/-- Everything waiting for the transport can answer. -/
theorem onBusAnswer_cases (k : BusAnswer → State → Outcome) (s : State) :
    (∃ a rest, s.inbox = .bus a :: rest ∧ onBusAnswer k s = k a { s with inbox := rest }) ∨
    (s.inbox = [] ∧ onBusAnswer k s = .fault .transportSilent) ∨
    (∃ m rest, s.inbox = m :: rest ∧ (∀ a, m ≠ .bus a) ∧ onBusAnswer k s = .refused .answerNotAwaited) := by
  unfold onBusAnswer
  split <;> simp_all

/-- Everything waiting for the signal port can answer. -/
theorem onSigAnswer_cases (k : SigAnswer → State → Outcome) (s : State) :
    (∃ a rest, s.inbox = .sig a :: rest ∧ onSigAnswer k s = k a { s with inbox := rest }) ∨
    (s.inbox = [] ∧ onSigAnswer k s = .fault .signalSilent) ∨
    (∃ m rest, s.inbox = m :: rest ∧ (∀ a, m ≠ .sig a) ∧ onSigAnswer k s = .refused .answerNotAwaited) := by
  unfold onSigAnswer
  split <;> simp_all

theorem onBusAnswer_bus {k : BusAnswer → State → Outcome} {s : State} {a : BusAnswer} {rest : List Input}
    (h : s.inbox = .bus a :: rest) : onBusAnswer k s = k a { s with inbox := rest } := by simp only [onBusAnswer, h]

theorem onSigAnswer_sig {k : SigAnswer → State → Outcome} {s : State} {a : SigAnswer} {rest : List Input}
    (h : s.inbox = .sig a :: rest) : onSigAnswer k s = k a { s with inbox := rest } := by simp only [onSigAnswer, h]

/-- Everything `ReadLen` makes of an answer (R131). -/
theorem lengthOf_cases (a : BusAnswer) :
    (∃ e, a = .busErr e ∧ lengthOf a = .error (.busError e)) ∨
    (∃ buf, a = .ok buf ∧ buf.length ≠ 2 ∧ lengthOf a = .error .sizeMismatch) ∨
    (∃ buf, a = .ok buf ∧ buf.length = 2 ∧ lengthOf a = .ok (le16 buf 0)) := by
  cases a with
  | busErr e => simp [lengthOf]
  | ok buf => by_cases h : buf.length = 2 <;> simp [lengthOf, Config.lenPrefixBytes, h]

/-- The two errors of a length read (R131). -/
theorem lengthOf_error {a : BusAnswer} {e : ErrorKind} (h : lengthOf a = .error e) :
    (∃ b, a = .busErr b ∧ e = .busError b) ∨ (∃ buf, a = .ok buf ∧ buf.length ≠ 2 ∧ e = .sizeMismatch) := by
  obtain ⟨b, rfl, hl⟩ | ⟨buf, rfl, hn, hl⟩ | ⟨buf, rfl, _, hl⟩ := lengthOf_cases a <;> rw [hl] at h <;> cases h
  · exact .inl ⟨b, rfl, rfl⟩
  · exact .inr ⟨buf, rfl, hn, rfl⟩

/-- A length that was read is the value of two bytes (R131). -/
theorem lengthOf_ok {a : BusAnswer} {v : Word} (h : lengthOf a = .ok v) : ∃ buf, a = .ok buf ∧ buf.length = 2 ∧ v = le16 buf 0 := by
  obtain ⟨b, rfl, hl⟩ | ⟨buf, rfl, hn, hl⟩ | ⟨buf, rfl, hn, hl⟩ := lengthOf_cases a <;> rw [hl] at h <;> cases h
  exact ⟨buf, rfl, hn, rfl⟩

/-! ## The handshake -/

/-- Everything the handshake makes of a length (R132). -/
theorem handshakeValue_cases (v : Word) (s : State) :
    (v = 2 ∧ handshakeValue v s = respond .openOk { s with lenLatch := v, sess := .ready }) ∨
    (v ≠ 2 ∧ s.attempt < 5 ∧
      handshakeValue v s = request (memRead 2) .openLen { s with lenLatch := v, attempt := s.attempt + 1 }) ∨
    (v ≠ 2 ∧ 5 ≤ s.attempt ∧ handshakeValue v s = raiseErr (.invalidMessageLen v) { s with lenLatch := v }) := by
  by_cases h1 : v = 2
  · exact .inl ⟨h1, by simp [handshakeValue, latchLen, Config.sentinelLen, h1]⟩
  by_cases h2 : s.attempt < 5
  · exact .inr (.inl ⟨h1, h2, by
      simp only [handshakeValue, latchLen, Config.sentinelLen, Config.handshakeAttempts, h1, h2, if_true, if_false]
      rfl⟩)
  · exact .inr (.inr ⟨h1, by omega, by
      simp only [handshakeValue, latchLen, Config.sentinelLen, Config.handshakeAttempts, h1, h2, if_false]⟩)

/-! ## Errors -/

@[simp] theorem sessAfter_busError (p : Phase) (e : EBus) (o : SessionState) : sessAfter p (.busError e) o = o := rfl
@[simp] theorem sessAfter_ioError (p : Phase) (e : EIo) (o : SessionState) : sessAfter p (.ioError e) o = o := rfl
@[simp] theorem sessAfter_noDataAvailable (p : Phase) (o : SessionState) : sessAfter p .noDataAvailable o = o := rfl
@[simp] theorem sessAfter_sizeMismatch (p : Phase) (o : SessionState) : sessAfter p .sizeMismatch o = o := rfl
@[simp] theorem sessAfter_invalid_open (v : Word) (o : SessionState) :
    sessAfter .openLen (.invalidMessageLen v) o = .faulted := rfl
theorem sessAfter_invalid_other {p : Phase} (h : p ≠ .openLen) (v : Word) (o : SessionState) :
    sessAfter p (.invalidMessageLen v) o = o := if_neg h

/-! ## The frame read -/

/-- Everything READ makes of the answer to its frame read (R134, R136): a bus error, an event decoded from the answer's bytes, or a
size mismatch. -/
theorem receiveFrame_cases {k : Kind} {n : Nat} (hk : frameLen k = some n) (hn : n ≤ 27) (a : BusAnswer) (s : State) :
    (∃ e, a = .busErr e ∧ receiveFrame k a s = raiseErr (.busError e) s) ∨
    (∃ buf ev, a = .ok buf ∧ buf.length = n ∧ decodeFrame k buf = .ok ev ∧ eventKind ev = some k ∧
      receiveFrame k a s = respond (.readOk ev) (storeFrame buf { s with frameCnt := buf.length })) ∨
    (∃ buf, a = .ok buf ∧ buf.length ≠ n ∧ decodeFrame k buf = .error .sizeMismatch ∧
      receiveFrame k a s = raiseErr .sizeMismatch { s with frameCnt := buf.length }) := by
  cases a with
  | busErr e => exact .inl ⟨e, rfl, rfl⟩
  | ok buf =>
    obtain ⟨h, ev, hd, hev⟩ | ⟨h, hd⟩ := decodeFrame_cases hk buf
    · refine .inr (.inl ⟨buf, ev, rfl, h, hd, hev, ?_⟩)
      have h27 : buf.length ≤ 27 := h ▸ hn
      simp only [receiveFrame, hk, h, storeFrame_frameCnt]
      simp only [if_true]
      rw [← h, frame_storeFrame h27, hd]
      rfl
    · exact .inr (.inr ⟨buf, rfl, h, hd, by simp [receiveFrame, hk, h]⟩)

/-- Every frame fits the buffer (R24). -/
theorem frameLen_le {k : Kind} {n : Nat} (hk : frameLen k = some n) : n ≤ 27 := by
  cases k <;> simp [frameLen] at hk <;> omega

end Sys2Proof.Machine
end

