-- ==== Sys2Proof/Laws/PerInstr.lean ====
section
/-! SUPPORT. Statements about every instruction as syntax, one lemma per constructor. -/

/-! Family `Encoding`: decoding the encoding of a well-formed instruction gives it back (R62, R72). -/
namespace Sys2Proof.Laws.Encoding

def Statement (i : Instr) : Prop := i.wf = true → decode (encode i) = .ok i

theorem empty : Statement .empty := fun _ => by decide
theorem touch0 : Statement .touch0 := fun _ => by decide
theorem button : Statement .button := fun _ => by decide
theorem touch1 : Statement .touch1 := fun _ => by decide
theorem touch2 : Statement .touch2 := fun _ => by decide
theorem invalid (len : Word) : Statement (.invalid len) := fun h => by
  rw [encode, decode_prefixBytes, classify_of_wf h]; rfl
theorem openCmd : Statement .openCmd := fun _ => rfl
theorem queryCmd : Statement .queryCmd := fun _ => rfl
theorem readCmd : Statement .readCmd := fun _ => rfl

end Sys2Proof.Laws.Encoding
end

