-- ==== Sys2Proof/Laws/Step.lean ====
section
/-! SUPPORT. Each meaning by the phase it stands in, and the step by the move at the front of `inbox`: what later proofs cite instead of
unfolding `exec`, `fetch` and `step`. -/

namespace Sys2Proof.Machine

variable {s : State}

/-! ## The commands, phase by phase -/

theorem exec_open_idle (h : s.phase = .idle) :
    exec .openCmd s = accept (s.sess == .uninitialized)
      (fun t => request (memRead 2) .openLen { t with attempt := 1 }) s := by
  simp only [exec, execOpen, h]; rfl

theorem exec_open_openLen (h : s.phase = .openLen) :
    exec .openCmd s = onBusAnswer (fun a t => .next (openAnswer a t)) s := by
  simp only [exec, execOpen, h]

theorem exec_query_idle (h : s.phase = .idle) :
    exec .queryCmd s = accept (s.sess == .ready) (request .signalQuery .querySig) s := by
  simp only [exec, execQuery, h]

theorem exec_query_querySig (h : s.phase = .querySig) :
    exec .queryCmd s = onSigAnswer (fun a t => .next (queryAnswer a t)) s := by
  simp only [exec, execQuery, h]

theorem exec_read_idle (h : s.phase = .idle) :
    exec .readCmd s = accept (s.sess == .ready) (request .signalQuery .readSig) s := by
  simp only [exec, execRead, h]

theorem exec_read_readSig (h : s.phase = .readSig) :
    exec .readCmd s = onSigAnswer (fun a t => .next (signalAnswer a t)) s := by
  simp only [exec, execRead, h]

theorem exec_read_readLen (h : s.phase = .readLen) :
    exec .readCmd s = onBusAnswer lengthAnswer s := by
  simp only [exec, execRead, h]

theorem exec_read_readFrame (h : s.phase = .readFrame) : exec .readCmd s = runKind s.kindLatch s := by
  simp only [exec, execRead, h]

/-! ## The kinds -/

/-- The match of R134 on the kind is the dispatch on the kind's instruction. -/
theorem exec_instrOfKind (k : Kind) (s : State) : exec (instrOfKind k) s = runKind k s := by cases k <;> rfl

/-- The meaning of a kind with a frame, whichever it is. -/
theorem runKind_frame {k : Kind} {n : Nat} (hk : frameLen k = some n) (s : State) : runKind k s = frameKind k n s := by
  cases k <;> simp [frameLen] at hk <;> subst hk <;> rfl

theorem frameKind_readLen {k : Kind} {n : Nat} (h : s.phase = .readLen) :
    frameKind k n s = .next (request (memRead n) .readFrame (latchKind k (latchLen (BitVec.ofNat 16 n) s))) := by
  simp only [frameKind, h]

theorem frameKind_readFrame {k : Kind} {n : Nat} (h : s.phase = .readFrame) :
    frameKind k n s = onBusAnswer (fun a t => .next (receiveFrame k a t)) s := by
  simp only [frameKind, h]

theorem frameKind_openLen {k : Kind} {n : Nat} (h : s.phase = .openLen) :
    frameKind k n s = .next (handshakeValue (BitVec.ofNat 16 n) s) := by
  simp only [frameKind, h]

theorem errorKind_readLen {k : Kind} {v : Word} {e : ErrorKind} (h : s.phase = .readLen) :
    errorKind k v e s = .next (raiseErr e (latchKind k (latchLen v s))) := by
  simp only [errorKind, h]

theorem errorKind_openLen {k : Kind} {v : Word} {e : ErrorKind} (h : s.phase = .openLen) :
    errorKind k v e s = .next (handshakeValue v s) := by
  simp only [errorKind, h]

/-! ## The step, move by move -/

theorem step_reset {rest : List Input} (h : s.inbox = .reset :: rest) :
    step s = .next (resetBlock { s with inbox := rest }) := by
  simp only [step, fetch, h]

theorem step_command_idle {c : BitVec 2} {i : Instr} {rest : List Input} (h : s.inbox = .command c :: rest)
    (hd : decodeCommand c = .ok i) (hp : s.phase = .idle) (hb : s.busy = false) :
    step s = exec i { s with inbox := rest } := by
  simp only [step, fetch, h, fetchCommand, decode, hd, hp, hb, and_self, if_true]

theorem step_command_busy {c : BitVec 2} {i : Instr} {rest : List Input} (h : s.inbox = .command c :: rest)
    (hd : decodeCommand c = .ok i) (hp : ¬(s.phase = .idle ∧ s.busy = false)) :
    step s = .refused .commandWhileBusy := by
  simp only [step, fetch, h, fetchCommand, decode, hd, hp, if_false]

theorem step_command_none {c : BitVec 2} {e : DecodeError} {rest : List Input} (h : s.inbox = .command c :: rest)
    (hd : decodeCommand c = .error e) : step s = .next { s with inbox := rest } := by
  simp only [step, fetch, h, fetchCommand, decode, hd]

/-- Where no reset and no command comes, the fetch is that of the instruction in progress. -/
theorem fetch_rest (h : ∀ m rest, s.inbox = m :: rest → (∃ a, m = .bus a) ∨ ∃ a, m = .sig a) : fetch s = fetchRest s := by
  unfold fetch
  cases hi : s.inbox with
  | nil => rfl
  | cons m rest => obtain ⟨a, rfl⟩ | ⟨a, rfl⟩ := h m rest hi <;> rfl

theorem fetchRest_idle (h : s.phase = .idle) : fetchRest s = .settle { s with inbox := s.inbox.tail } := by
  simp only [fetchRest, h]
theorem fetchRest_openLen (h : s.phase = .openLen) : fetchRest s = .run .openCmd s := by simp only [fetchRest, h]
theorem fetchRest_querySig (h : s.phase = .querySig) : fetchRest s = .run .queryCmd s := by simp only [fetchRest, h]
theorem fetchRest_readSig (h : s.phase = .readSig) : fetchRest s = .run .readCmd s := by simp only [fetchRest, h]
theorem fetchRest_readLen (h : s.phase = .readLen) : fetchRest s = fetchPrefix s := by simp only [fetchRest, h]
theorem fetchRest_readFrame (h : s.phase = .readFrame) : fetchRest s = .run (instrOfKind s.kindLatch) s := by
  simp only [fetchRest, h]

/-- The fetch of a length prefix: two bytes select the kind, anything else is READ's own. -/
theorem fetchPrefix_pair {buf : List Byte} {rest : List Input} (h : s.inbox = .bus (.ok buf) :: rest) (hn : buf.length = 2) :
    fetchPrefix s = .run (instrOfKind (classify (le16 buf 0))) { s with inbox := rest } := by
  obtain ⟨b0, b1, rfl⟩ := length_eq_two hn
  simp only [fetchPrefix, h]; rfl

theorem fetchPrefix_other (h : ∀ buf rest, s.inbox = .bus (.ok buf) :: rest → buf.length ≠ 2) :
    fetchPrefix s = .run .readCmd s := by
  unfold fetchPrefix
  split <;> try rfl
  rename_i hi
  rw [if_neg]
  exact h _ _ hi

/-- A step of an instruction in progress, once the fetch is known. -/
theorem step_run {i : Instr} {t : State} (h : fetch s = .run i t) : step s = exec i t := by simp only [step, h]
theorem step_settle {t : State} (h : fetch s = .settle t) : step s = .next t := by simp only [step, h]

/-! ## The step on an answer, phase by phase -/

theorem step_openLen {a : BusAnswer} {rest : List Input} (hi : s.inbox = .bus a :: rest) (hp : s.phase = .openLen) :
    step s = .next (openAnswer a { s with inbox := rest }) := by
  rw [step_run ((fetch_rest (by simp [hi])).trans (fetchRest_openLen hp)), exec_open_openLen hp, onBusAnswer_bus hi]

theorem step_querySig {a : SigAnswer} {rest : List Input} (hi : s.inbox = .sig a :: rest) (hp : s.phase = .querySig) :
    step s = .next (queryAnswer a { s with inbox := rest }) := by
  rw [step_run ((fetch_rest (by simp [hi])).trans (fetchRest_querySig hp)), exec_query_querySig hp, onSigAnswer_sig hi]

theorem step_readSig {a : SigAnswer} {rest : List Input} (hi : s.inbox = .sig a :: rest) (hp : s.phase = .readSig) :
    step s = .next (signalAnswer a { s with inbox := rest }) := by
  rw [step_run ((fetch_rest (by simp [hi])).trans (fetchRest_readSig hp)), exec_read_readSig hp, onSigAnswer_sig hi]

/-- The length of a READ: whether the fetch or READ itself takes the answer, the effect is that of R134. -/
theorem step_readLen {a : BusAnswer} {rest : List Input} (hi : s.inbox = .bus a :: rest) (hp : s.phase = .readLen) :
    step s = lengthAnswer a { s with inbox := rest } := by
  by_cases hb : ∃ buf, a = .ok buf ∧ buf.length = 2
  · obtain ⟨buf, rfl, hn⟩ := hb
    rw [step_run ((fetch_rest (by simp [hi])).trans ((fetchRest_readLen hp).trans (fetchPrefix_pair hi hn))), exec_instrOfKind]
    simp only [lengthAnswer, lengthOf, Config.lenPrefixBytes, hn, if_true]
  · rw [step_run ((fetch_rest (by simp [hi])).trans ((fetchRest_readLen hp).trans
      (fetchPrefix_other fun buf _ hi' hn => hb ⟨buf, by rw [hi] at hi'; cases hi'; rfl, hn⟩))), exec_read_readLen hp, onBusAnswer_bus hi]

theorem step_readFrame {a : BusAnswer} {rest : List Input} {n : Nat} (hi : s.inbox = .bus a :: rest) (hp : s.phase = .readFrame)
    (hk : frameLen s.kindLatch = some n) : step s = .next (receiveFrame s.kindLatch a { s with inbox := rest }) := by
  rw [step_run ((fetch_rest (by simp [hi])).trans (fetchRest_readFrame hp)), exec_instrOfKind, runKind_frame hk,
    frameKind_readFrame hp, onBusAnswer_bus hi]

/-! ## Several steps -/

@[simp] theorem steps_zero : steps 0 s = .next s := rfl

theorem steps_succ {t : State} {k : Nat} (h : step s = .next t) : steps (k + 1) s = steps k t := by
  have h' : core.step s = .next t := h
  simp only [steps, Host.Core.run, h']
  rfl

/-! ## Everything a step can do -/

/-- The moves a step can make, from any state: what `step_moved` says of a next state. In the two phases that read a length or a frame the
answer is stated through `lengthOf` and `frameLen`, so that no invariant is needed. -/
inductive Moved (s : State) : State → Prop where
  | reset {rest} (hi : s.inbox = .reset :: rest) : Moved s (resetBlock { s with inbox := rest })
  | noCommand {rest} (hi : s.inbox = .command 3 :: rest) : Moved s { s with inbox := rest }
  | idle (hp : s.phase = .idle) (hi : ∀ m rest, s.inbox = m :: rest → (∃ a, m = .bus a) ∨ ∃ a, m = .sig a) :
      Moved s { s with inbox := s.inbox.tail }
  | refused {c rest} (hi : s.inbox = .command c :: rest) (hc : c ≠ 3) (hp : s.phase = .idle) (hb : s.busy = false)
      (hs : (c = 0 ∧ s.sess ≠ .uninitialized) ∨ (c ≠ 0 ∧ s.sess ≠ .ready)) : Moved s (refuse { s with inbox := rest })
  | openStart {rest} (hi : s.inbox = .command 0 :: rest) (hp : s.phase = .idle) (hb : s.busy = false)
      (hs : s.sess = .uninitialized) : Moved s (request (memRead 2) .openLen { s with inbox := rest, busy := true, attempt := 1 })
  | sigStart {c p rest} (hi : s.inbox = .command c :: rest) (hc : (c = 1 ∧ p = .querySig) ∨ (c = 2 ∧ p = .readSig))
      (hp : s.phase = .idle) (hb : s.busy = false) (hs : s.sess = .ready) :
      Moved s (request .signalQuery p { s with inbox := rest, busy := true })
  | openErr {a e rest} (hi : s.inbox = .bus a :: rest) (hp : s.phase = .openLen) (hl : lengthOf a = .error e) :
      Moved s (raiseErr e { s with inbox := rest })
  | openDone {a rest} (hi : s.inbox = .bus a :: rest) (hp : s.phase = .openLen) (hl : lengthOf a = .ok 2) :
      Moved s (respond .openOk { s with inbox := rest, lenLatch := 2, sess := .ready })
  | openAgain {a v rest} (hi : s.inbox = .bus a :: rest) (hp : s.phase = .openLen) (hl : lengthOf a = .ok v) (hv : v ≠ 2)
      (ha : s.attempt < 5) :
      Moved s (request (memRead 2) .openLen { s with inbox := rest, lenLatch := v, attempt := s.attempt + 1 })
  | openFaults {a v rest} (hi : s.inbox = .bus a :: rest) (hp : s.phase = .openLen) (hl : lengthOf a = .ok v) (hv : v ≠ 2)
      (ha : 5 ≤ s.attempt) : Moved s (raiseErr (.invalidMessageLen v) { s with inbox := rest, lenLatch := v })
  | sigErr {e rest} (hi : s.inbox = .sig (.ioErr e) :: rest) (hp : s.phase = .querySig ∨ s.phase = .readSig) :
      Moved s (raiseErr (.ioError e) { s with inbox := rest })
  | queryDone {l rest} (hi : s.inbox = .sig (.line l) :: rest) (hp : s.phase = .querySig) :
      Moved s (respond (.queryOk (asserted l)) { s with inbox := rest })
  | readNotAsserted {rest} (hi : s.inbox = .sig (.line .high) :: rest) (hp : s.phase = .readSig) :
      Moved s (raiseErr .noDataAvailable { s with inbox := rest })
  | readAsserted {rest} (hi : s.inbox = .sig (.line .low) :: rest) (hp : s.phase = .readSig) :
      Moved s (request (memRead 2) .readLen { s with inbox := rest })
  | lenErr {a e rest} (hi : s.inbox = .bus a :: rest) (hp : s.phase = .readLen) (hl : lengthOf a = .error e) :
      Moved s (raiseErr e { s with inbox := rest })
  | lenEmpty {a rest} (hi : s.inbox = .bus a :: rest) (hp : s.phase = .readLen) (hl : lengthOf a = .ok 2) :
      Moved s (raiseErr .noDataAvailable { s with inbox := rest, lenLatch := 2, kindLatch := .empty })
  | lenInvalid {a v rest} (hi : s.inbox = .bus a :: rest) (hp : s.phase = .readLen) (hl : lengthOf a = .ok v)
      (hv : v ≠ 2 ∧ v ≠ 7 ∧ v ≠ 14 ∧ v ≠ 17 ∧ v ≠ 27) :
      Moved s (raiseErr (.invalidMessageLen v) { s with inbox := rest, lenLatch := v, kindLatch := .invalid v })
  | lenFrame {a v n rest} (hi : s.inbox = .bus a :: rest) (hp : s.phase = .readLen) (hl : lengthOf a = .ok v)
      (hk : frameLen (classify v) = some n) :
      Moved s (request (memRead n) .readFrame { s with inbox := rest, lenLatch := v, kindLatch := classify v })
  | frameErr {e n rest} (hi : s.inbox = .bus (.busErr e) :: rest) (hp : s.phase = .readFrame) (hk : frameLen s.kindLatch = some n) :
      Moved s (raiseErr (.busError e) { s with inbox := rest })
  | frameSize {buf n rest} (hi : s.inbox = .bus (.ok buf) :: rest) (hp : s.phase = .readFrame) (hk : frameLen s.kindLatch = some n)
      (hn : buf.length ≠ n) : Moved s (raiseErr .sizeMismatch { s with inbox := rest, frameCnt := buf.length })
  | frameDone {buf ev rest} (hi : s.inbox = .bus (.ok buf) :: rest) (hp : s.phase = .readFrame)
      (hk : frameLen s.kindLatch = some buf.length) (hd : decodeFrame s.kindLatch buf = .ok ev) (hev : eventKind ev = some s.kindLatch) :
      Moved s (respond (.readOk ev) (storeFrame buf { s with inbox := rest, frameCnt := buf.length }))

/-- A command that comes to an idle block. -/
theorem exec_command_moved {c : BitVec 2} {i : Instr} {rest : List Input} {t : State} (hi : s.inbox = .command c :: rest)
    (hd : decodeCommand c = .ok i) (hp : s.phase = .idle) (hb : s.busy = false) (h : exec i { s with inbox := rest } = .next t) :
    Moved s t := by
  obtain ⟨rfl, hc⟩ | ⟨rfl, hc⟩ | ⟨rfl, hc⟩ | ⟨rfl, hc⟩ := decodeCommand_cases c <;> rw [hc] at hd <;> cases hd
  · rw [exec_open_idle (s := { s with inbox := rest }) hp] at h
    by_cases hs : s.sess = .uninitialized
    · rw [accept_start (s := { s with inbox := rest }) hb (by simp [hs])] at h; cases h; exact .openStart hi hp hb hs
    · rw [accept_refuse (s := { s with inbox := rest }) hb (by simp [hs])] at h; cases h; exact .refused hi (by decide) hp hb (.inl ⟨rfl, hs⟩)
  · rw [exec_query_idle (s := { s with inbox := rest }) hp] at h
    by_cases hs : s.sess = .ready
    · rw [accept_start (s := { s with inbox := rest }) hb (by simp [hs])] at h; cases h; exact .sigStart hi (.inl ⟨rfl, rfl⟩) hp hb hs
    · rw [accept_refuse (s := { s with inbox := rest }) hb (by simp [hs])] at h; cases h; exact .refused hi (by decide) hp hb (.inr ⟨by decide, hs⟩)
  · rw [exec_read_idle (s := { s with inbox := rest }) hp] at h
    by_cases hs : s.sess = .ready
    · rw [accept_start (s := { s with inbox := rest }) hb (by simp [hs])] at h; cases h; exact .sigStart hi (.inr ⟨rfl, rfl⟩) hp hb hs
    · rw [accept_refuse (s := { s with inbox := rest }) hb (by simp [hs])] at h; cases h; exact .refused hi (by decide) hp hb (.inr ⟨by decide, hs⟩)

/-- An OPEN in progress. -/
theorem exec_open_moved {t : State} (hp : s.phase = .openLen) (h : exec .openCmd s = .next t) : Moved s t := by
  rw [exec_open_openLen hp] at h
  obtain ⟨a, rest, hi, hk⟩ | ⟨_, hk⟩ | ⟨_, _, _, _, hk⟩ := onBusAnswer_cases _ s <;> rw [hk] at h
  · cases hl : lengthOf a with
    | error e => simp only [openAnswer, hl] at h; cases h; exact .openErr hi hp hl
    | ok v =>
      simp only [openAnswer, hl] at h; cases h
      obtain ⟨rfl, hv⟩ | ⟨h2, ha, hv⟩ | ⟨h2, ha, hv⟩ := handshakeValue_cases v { s with inbox := rest } <;> rw [hv]
      · exact .openDone hi hp hl
      · exact .openAgain hi hp hl h2 ha
      · exact .openFaults hi hp hl h2 ha
  · cases h
  · cases h

/-- A QUERY in progress. -/
theorem exec_query_moved {t : State} (hp : s.phase = .querySig) (h : exec .queryCmd s = .next t) : Moved s t := by
  rw [exec_query_querySig hp] at h
  obtain ⟨a, rest, hi, hk⟩ | ⟨_, hk⟩ | ⟨_, _, _, _, hk⟩ := onSigAnswer_cases _ s <;> rw [hk] at h
  · cases a with
    | line l => cases h; exact .queryDone hi hp
    | ioErr e => cases h; exact .sigErr hi (.inl hp)
  · cases h
  · cases h

/-- A READ whose signal query is answered. -/
theorem exec_read_moved {t : State} (hp : s.phase = .readSig) (h : exec .readCmd s = .next t) : Moved s t := by
  rw [exec_read_readSig hp] at h
  obtain ⟨a, rest, hi, hk⟩ | ⟨_, hk⟩ | ⟨_, _, _, _, hk⟩ := onSigAnswer_cases _ s <;> rw [hk] at h
  · cases a with
    | line l =>
      cases l with
      | low => cases h; exact .readAsserted hi hp
      | high => cases h; exact .readNotAsserted hi hp
    | ioErr e => cases h; exact .sigErr hi (.inr hp)
  · cases h
  · cases h

/-- The length of a READ, as the kind it selects. -/
theorem runKind_moved {a : BusAnswer} {v : Word} {rest : List Input} {t : State} (hi : s.inbox = .bus a :: rest)
    (hp : s.phase = .readLen) (hl : lengthOf a = .ok v) (h : runKind (classify v) { s with inbox := rest } = .next t) :
    Moved s t := by
  cases hk : frameLen (classify v) with
  | some n =>
    rw [runKind_frame hk, frameKind_readLen (s := { s with inbox := rest }) hp] at h
    have hv : BitVec.ofNat 16 n = v := by rw [(frameLen_classify hk).1]; simp
    rw [hv] at h; cases h
    exact .lenFrame hi hp hl hk
  | none =>
    obtain ⟨rfl, hc⟩ | ⟨rfl, hc⟩ | ⟨rfl, hc⟩ | ⟨rfl, hc⟩ | ⟨rfl, hc⟩ | ⟨hv, hc⟩ := classify_cases v <;>
      rw [hc] at hk h <;> try (simp [frameLen] at hk)
    · exact by
        have h' : errorKind .empty 2 .noDataAvailable { s with inbox := rest } = .next t := h
        rw [errorKind_readLen (s := { s with inbox := rest }) hp] at h'; cases h'; exact .lenEmpty hi hp hl
    · exact by
        have h' : errorKind (.invalid v) v (.invalidMessageLen v) { s with inbox := rest } = .next t := h
        rw [errorKind_readLen (s := { s with inbox := rest }) hp] at h'; cases h'; exact .lenInvalid hi hp hl hv

/-- The length read of a READ, whatever its answer. -/
theorem readLen_moved {t : State} (hp : s.phase = .readLen)
    (h : exec .readCmd s = .next t) : Moved s t := by
  rw [exec_read_readLen hp] at h
  obtain ⟨a, rest, hi, hk⟩ | ⟨_, hk⟩ | ⟨_, _, _, _, hk⟩ := onBusAnswer_cases _ s <;> rw [hk] at h
  · cases hl : lengthOf a with
    | error e => simp only [lengthAnswer, hl] at h; cases h; exact .lenErr hi hp hl
    | ok v => simp only [lengthAnswer, hl] at h; exact runKind_moved hi hp hl h
  · cases h
  · cases h

/-- The frame read of a READ. -/
theorem readFrame_moved {t : State} (hp : s.phase = .readFrame) (h : runKind s.kindLatch s = .next t) : Moved s t := by
  cases hk : frameLen s.kindLatch with
  | none =>
    cases hkk : s.kindLatch <;> rw [hkk] at hk h <;> simp [frameLen] at hk <;>
      simp [runKind, execEmpty, execInvalid, errorKind, hp] at h
  | some n =>
    rw [runKind_frame hk, frameKind_readFrame hp] at h
    obtain ⟨a, rest, hi, hb⟩ | ⟨_, hb⟩ | ⟨_, _, _, _, hb⟩ := onBusAnswer_cases (fun a t => .next (receiveFrame s.kindLatch a t)) s <;>
      rw [hb] at h
    · cases h
      obtain ⟨e, rfl, hr⟩ | ⟨buf, ev, rfl, hn, hd, hev, hr⟩ | ⟨buf, rfl, hn, hd, hr⟩ :=
        receiveFrame_cases hk (frameLen_le hk) a { s with inbox := rest } <;> rw [hr]
      · exact .frameErr hi hp hk
      · subst hn; exact .frameDone hi hp hk hd hev
      · exact .frameSize hi hp hk hn
    · cases h
    · cases h

/-- Everything a step can do: if it answers a next state, it made one of the moves of `Moved`. -/
theorem step_moved {t : State} (h : step s = .next t) : Moved s t := by
  by_cases hr : ∃ rest, s.inbox = .reset :: rest
  · obtain ⟨rest, hi⟩ := hr
    rw [step_reset hi] at h; cases h; exact .reset hi
  by_cases hc : ∃ c rest, s.inbox = .command c :: rest
  · obtain ⟨c, rest, hi⟩ := hc
    cases hd : decodeCommand c with
    | error e =>
      rw [step_command_none hi hd] at h; cases h
      obtain ⟨_, hc⟩ | ⟨_, hc⟩ | ⟨_, hc⟩ | ⟨rfl, hc⟩ := decodeCommand_cases c <;> try (rw [hc] at hd; cases hd)
      exact .noCommand hi
    | ok i =>
      by_cases hp : s.phase = .idle ∧ s.busy = false
      · rw [step_command_idle hi hd hp.1 hp.2] at h
        exact exec_command_moved hi hd hp.1 hp.2 h
      · rw [step_command_busy hi hd hp] at h; cases h
  have hm : ∀ m rest, s.inbox = m :: rest → (∃ a, m = .bus a) ∨ ∃ a, m = .sig a := by
    intro m rest hi
    cases m with
    | reset => exact absurd ⟨rest, hi⟩ hr
    | command c => exact absurd ⟨c, rest, hi⟩ hc
    | bus a => exact .inl ⟨a, rfl⟩
    | sig a => exact .inr ⟨a, rfl⟩
  have hf := fetch_rest hm
  cases hp : s.phase with
  | idle => rw [step_settle (hf.trans (fetchRest_idle hp))] at h; cases h; exact .idle hp hm
  | openLen => rw [step_run (hf.trans (fetchRest_openLen hp))] at h; exact exec_open_moved hp h
  | querySig => rw [step_run (hf.trans (fetchRest_querySig hp))] at h; exact exec_query_moved hp h
  | readSig => rw [step_run (hf.trans (fetchRest_readSig hp))] at h; exact exec_read_moved hp h
  | readFrame =>
    rw [step_run (hf.trans (fetchRest_readFrame hp)), exec_instrOfKind] at h; exact readFrame_moved hp h
  | readLen =>
    by_cases hb : ∃ buf rest, s.inbox = .bus (.ok buf) :: rest ∧ buf.length = 2
    · obtain ⟨buf, rest, hi, hn⟩ := hb
      rw [step_run (hf.trans ((fetchRest_readLen hp).trans (fetchPrefix_pair hi hn))), exec_instrOfKind] at h
      exact runKind_moved hi hp (by simp [lengthOf, Config.lenPrefixBytes, hn]) h
    · rw [step_run (hf.trans ((fetchRest_readLen hp).trans (fetchPrefix_other fun buf rest hi hn => hb ⟨buf, rest, hi, hn⟩)))] at h
      exact readLen_moved hp h

end Sys2Proof.Machine
end

