-- ==== Sys2Proof/Tests/Slice0.lean ====
section
/-! SUPPORT. The model's own tests: the WellFormed smoke, words written out from the spec's tables, one step of each instruction with the
outcome `95_test_vectors.md` gives it, and a witness for the hypotheses of every statement. -/

namespace Sys2Proof.Tests

open Sys2Proof Sys2Proof.Machine

/-! ## Helpers -/

/-- The one error information of each port that every choice of the open types has. -/
def busInfo : EBus := ⟨0, .inl rfl⟩
def ioInfo : EIo := ⟨0, .inl rfl⟩

/-- The request a phase waits for, the latched kind being `TOUCH0`. -/
def asked : Phase → List Output
  | .idle => []
  | .openLen => [.request (.memRead 0x24 0 2)]
  | .querySig => [.request .signalQuery]
  | .readSig => [.request .signalQuery]
  | .readLen => [.request (.memRead 0x24 0 2)]
  | .readFrame => [.request (.memRead 0x24 0 7)]

/-- A block in a session state and a phase, with the outside world's moves to come; length 7 is latched. -/
def block (sess : SessionState) (phase : Phase) (inbox : List Input) : State :=
  { State.reset with
    sess := sess, phase := phase, busy := phase != .idle, lenLatch := 7, kindLatch := .touch0, inbox := inbox,
    outbox := asked phase }

/-- A handshake at its `attempt`-th length read. -/
def handshake (attempt : Nat) (inbox : List Input) : State := { block .uninitialized .openLen inbox with attempt := attempt }

/-- A READ that awaits the frame of a kind. -/
def awaiting (k : Kind) (len : Word) (inbox : List Input) : State :=
  { block .ready .readFrame inbox with kindLatch := k, lenLatch := len }

/-- What a step puts on the interfaces after `phase`'s own request. -/
def outputs : Outcome → List Output
  | .next s => s.outbox
  | .fault _ => []
  | .refused _ => []

/-- What a step does: the last output, and `sess`, `busy`, `phase` after it. -/
def summary : Outcome → Option (Option Output × SessionState × Bool × Phase)
  | .next s => some (s.outbox.getLast?, s.sess, s.busy, s.phase)
  | .fault _ => none
  | .refused _ => none

/-- The registers a row of R136 may write besides. -/
def latches : Outcome → Option (Nat × Word × Kind × Nat)
  | .next s => some (s.attempt, s.lenLatch, s.kindLatch, s.frameCnt)
  | .fault _ => none
  | .refused _ => none

/-! ## The frames of `95_test_vectors.md` section 2.4 and 2.5 -/

/-- T0.1. -/
def frame0 : List Byte := [0x07, 0x00, 0x01, 0x34, 0x12, 0x2D, 0x83]
/-- T1.1. -/
def frame1 : List Byte :=
  [0x11, 0x00, 0x01, 0xE9, 0x03, 0x21, 0x40, 0x01, 0x80, 0x64, 0x00, 0xC8, 0x00, 0x2D, 0x0C, 0x00, 0x00]
/-- T2.1. -/
def frame2 : List Byte :=
  [0x1B, 0x00, 0x01, 0x10, 0x27, 0x02, 0xC5, 0x01, 0x80, 0x64, 0x00, 0xC8, 0x00, 0x2D, 0x0C, 0x00, 0x00] ++
  [0x02, 0x41, 0x2C, 0x01, 0x90, 0x01, 0x1E, 0x08, 0x00, 0x7F]
/-- The second row of section 2.5. -/
def frameB : List Byte := [0x0E, 0x00, 0x03, 0x39, 0x30, 0xF5, 0x01, 0x00, 0x02, 0x00, 0x03, 0x00, 0x04, 0x00]

def event0 : Event := .touch ⟨7, 1, 4660, 1, 13, 2, 3⟩ none none
def event1 : Event := .touch ⟨17, 1, 1001, 1, 1, 1, 0⟩ (some ⟨1, 1, 0, 0, 100, 200, 45, 12, 0⟩) none
def event2 : Event :=
  .touch ⟨27, 1, 10000, 0, 2, 3, 5⟩ (some ⟨1, 1, 0, 0, 100, 200, 45, 12, 0⟩) (some ⟨2, 0, 2, 1, 300, 400, 30, 8, 127⟩)
def eventB : Event := .button ⟨14, 3, 12345, 245, #v[1, 2, 3, 4]⟩

/-! ## WellFormed smoke: an ill-formed term for each recognised length (R96) -/

theorem test_wf_refuses_invalid_2 : (Instr.invalid 2).wf = false := by decide
theorem test_wf_refuses_invalid_7 : (Instr.invalid 7).wf = false := by decide
theorem test_wf_refuses_invalid_14 : (Instr.invalid 14).wf = false := by decide
theorem test_wf_refuses_invalid_17 : (Instr.invalid 17).wf = false := by decide
theorem test_wf_refuses_invalid_27 : (Instr.invalid 27).wf = false := by decide
theorem test_wf_accepts_invalid_37 : (Instr.invalid 37).wf = true := by decide

/-! ## Decoding, bit by bit (R61, R62, R72): a prefix's bits are written low-order byte first, each byte with bit 7 on the left -/

theorem test_decode_empty : decode (.frame [0b00000010, 0b00000000]) = .ok .empty := by decide
theorem test_decode_touch0 : decode (.frame [0b00000111, 0b00000000]) = .ok .touch0 := by decide
theorem test_decode_button : decode (.frame [0b00001110, 0b00000000]) = .ok .button := by decide
theorem test_decode_touch1 : decode (.frame [0b00010001, 0b00000000]) = .ok .touch1 := by decide
theorem test_decode_touch2 : decode (.frame [0b00011011, 0b00000000]) = .ok .touch2 := by decide
theorem test_decode_invalid_high_byte : decode (.frame [0b00000010, 0b00000001]) = .ok (.invalid 258) := by decide
theorem test_decode_invalid_byte_order : decode (.frame [0b00000000, 0b00011011]) = .ok (.invalid 6912) := by decide
theorem test_decode_open : decode (.command 0b00) = .ok .openCmd := by decide
theorem test_decode_query : decode (.command 0b01) = .ok .queryCmd := by decide
theorem test_decode_read : decode (.command 0b10) = .ok .readCmd := by decide
theorem test_decode_code_3 : decode (.command 0b11) = .error .notACommand := by decide
theorem test_decode_short : decode (.frame [0x02]) = .error .shortPrefix := by decide

/-- The table's rows in its numbering of bits: byte 1 is bits 15..8. -/
theorem test_table_words :
    decodeTableWord 16 0x0002 = some .empty ∧ decodeTableWord 56 0x832D1234010007 = some .touch0 ∧
    decodeTableWord 16 0x000E = some .button ∧ decodeTableWord 16 0x0011 = some .touch1 ∧
    decodeTableWord 16 0x001B = some .touch2 ∧ decodeTableWord 16 0x0102 = some (.invalid 258) ∧
    decodeTableWord 2 0 = some .openCmd ∧ decodeTableWord 8 1 = some .queryCmd ∧ decodeTableWord 8 2 = some .readCmd ∧
    decodeTableWord 8 3 = none := by decide

/-! ## The first instruction after reset, placed where the step fetches (log 20) -/

theorem test_first_after_reset :
    outputs (step (State.reset.withFetchWord 8 0)) = [.request (.memRead 0x24 0 2)] ∧
    outputs (step (State.reset.withFetchWord 8 1)) = [.response (.refused .wrongState)] ∧
    outputs (step (State.reset.withFetchWord 8 2)) = [.response (.refused .wrongState)] ∧
    outputs (step (State.reset.withFetchWord 16 0x0002)) = [.response (.err .noDataAvailable)] ∧
    outputs (step (State.reset.withFetchWord 16 0x0009)) = [.response (.err (.invalidMessageLen 9))] ∧
    outputs (step (State.reset.withFetchWord 56 0x832D1234010007)) = [.request (.memRead 0x24 0 7)] ∧
    outputs (step (State.reset.withFetchWord 112 0x0E)) = [.request (.memRead 0x24 0 14)] ∧
    outputs (step (State.reset.withFetchWord 136 0x11)) = [.request (.memRead 0x24 0 17)] ∧
    outputs (step (State.reset.withFetchWord 16 0x001B)) = [.request (.memRead 0x24 0 27)] := by decide

/-- The step runs exactly the instruction that was placed. -/
theorem test_placed_runs :
    fetch (State.reset.withFetchWord 112 0x0E) =
      .run .button { State.reset with sess := .ready, phase := .readLen, busy := true,
                                      inbox := [.bus (.ok ([0x0E] ++ List.replicate 13 0))] } := by decide

/-! ## Layouts (`95_test_vectors.md` sections 2.2, 2.3, 2.5) -/

theorem test_report_maxima :
    unpackTouchReport [0xFF, 0xFF, 0xFF, 0xFF, 0xFF, 0xC0, 0x38] = ⟨65535, 255, 65535, 0, 0, 0, 0⟩ := by decide
theorem test_report_padding : unpackTouchReport [0x07, 0x00, 0x01, 0x34, 0x12, 0xED, 0xBB] = ⟨7, 1, 4660, 1, 13, 2, 3⟩ := by decide
theorem test_record_odd_offset :
    unpackTouchRecord [0x00, 0x60, 0x01, 0x00, 0x02, 0x00, 0x03, 0x04, 0x05, 0x06] = ⟨0, 0, 3, 0, 1, 2, 3, 1284, 6⟩ := by decide
theorem test_record_high_bits :
    unpackTouchRecord [0x07, 0x1F, 0x00, 0x80, 0x00, 0x40, 0xFF, 0x34, 0x12, 0x80] =
      ⟨7, 0, 0, 31, 32768, 16384, 255, 4660, 128⟩ := by decide
theorem test_button_unchecked :
    unpackButtonRecord [0x10, 0x00, 0x07, 0xFF, 0xFF, 0xFF, 0xFF, 0xFF, 0x00, 0x80, 0x34, 0x12, 0xCD, 0xAB] =
      ⟨16, 7, 65535, 255, #v[65535, 32768, 4660, 43981]⟩ := by decide
theorem test_pack_record :
    packTouchRecord ⟨3, 1, 1, 5, 800, 480, 64, 16, 90⟩ = [0x03, 0xA5, 0x20, 0x03, 0xE0, 0x01, 0x40, 0x10, 0x00, 0x5A] := by decide
theorem test_pack_report_padding :
    packTouchReport (unpackTouchReport [0x07, 0x00, 0x01, 0x00, 0x00, 0xFF, 0xFF]) =
      [0x07, 0x00, 0x01, 0x00, 0x00, 0x3F, 0xC7] := by decide
theorem test_pack_frames :
    packEvent event0 = frame0 ∧ packEvent event1 = frame1 ∧ packEvent event2 = frame2 ∧ packEvent eventB = frameB := by decide

/-! ## One step of each instruction (`95_test_vectors.md` sections 2.1, 2.6 and programs P1 to P6) -/

theorem test_empty_read :
    summary (step (block .ready .readLen [.bus (.ok [0x02, 0x00])])) =
      some (some (.response (.err .noDataAvailable)), .ready, false, .idle) := by decide
theorem test_empty_open :
    summary (exec .empty (handshake 5 [])) = some (some (.response .openOk), .ready, false, .idle) := by decide
theorem test_invalid_read :
    summary (step (block .ready .readLen [.bus (.ok [0x09, 0x00])])) =
      some (some (.response (.err (.invalidMessageLen 9))), .ready, false, .idle) := by decide
theorem test_invalid_fifth :
    summary (exec (.invalid 258) (handshake 5 [])) =
      some (some (.response (.err (.invalidMessageLen 258))), .faulted, false, .idle) := by decide
theorem test_touch0_event :
    summary (step (awaiting .touch0 7 [.bus (.ok frame0)])) = some (some (.response (.readOk event0)), .ready, false, .idle) := by
  decide +kernel
theorem test_touch0_truncated :
    latches (step (awaiting .touch0 7 [.bus (.ok (frame0.take 6))])) = some (1, 7, .touch0, 6) := by decide +kernel
theorem test_touch1_event :
    summary (step (awaiting .touch1 17 [.bus (.ok frame1)])) = some (some (.response (.readOk event1)), .ready, false, .idle) := by
  decide +kernel
theorem test_touch1_asks :
    summary (step (block .ready .readLen [.bus (.ok [0x11, 0x00])])) =
      some (some (.request (.memRead 0x24 0 17)), .ready, true, .readFrame) := by decide
theorem test_touch2_event :
    summary (step (awaiting .touch2 27 [.bus (.ok frame2)])) = some (some (.response (.readOk event2)), .ready, false, .idle) := by
  decide +kernel
theorem test_touch2_too_long :
    summary (step (awaiting .touch2 27 [.bus (.ok (frame2 ++ [0x00]))])) =
      some (some (.response (.err .sizeMismatch)), .ready, false, .idle) := by decide +kernel
theorem test_button_event :
    summary (step (awaiting .button 14 [.bus (.ok frameB)])) = some (some (.response (.readOk eventB)), .ready, false, .idle) := by
  decide +kernel
theorem test_button_in_handshake :
    latches (step (handshake 3 [.bus (.ok [0x0E, 0x00])])) = some (4, 14, .touch0, 0) := by decide
theorem test_open_third_attempt :
    summary (step (handshake 3 [.bus (.ok [0x02, 0x00])])) = some (some (.response .openOk), .ready, false, .idle) := by decide
theorem test_open_bus_error :
    summary (step (handshake 2 [.bus (.busErr busInfo)])) =
      some (some (.response (.err (.busError busInfo))), .uninitialized, false, .idle) := by decide
theorem test_query_low :
    summary (step (block .ready .querySig [.sig (.line .low)])) = some (some (.response (.queryOk true)), .ready, false, .idle) := by
  decide
theorem test_query_wrong_state :
    summary (step (block .uninitialized .idle [.command 1])) =
      some (some (.response (.refused .wrongState)), .uninitialized, false, .idle) := by decide
theorem test_read_not_asserted :
    summary (step (block .ready .readSig [.sig (.line .high)])) =
      some (some (.response (.err .noDataAvailable)), .ready, false, .idle) := by decide
theorem test_read_length_truncated :
    latches (step (block .ready .readLen [.bus (.ok [0x11])])) = some (1, 7, .touch0, 0) := by decide
/-- P6. -/
theorem test_hang : step (awaiting .button 14 []) = .fault .transportSilent := rfl

/-! ## Witnesses: concrete values that meet the hypotheses of each statement, clause by clause, at the ends of their ranges -/

/-- A block that has just asked meets the invariant, in every phase whose session state it is in. -/
theorem block_inv (sess : SessionState) (p : Phase) (inbox : List Input) (h : p.home sess) : (block sess p inbox).Inv where
  busyIff := by cases p <;> simp [block]
  home := h
  attemptLow := Nat.le_refl 1
  attemptHigh := show 1 ≤ 5 by decide
  latched := fun _ => ⟨rfl, rfl⟩
  outstanding := by cases p <;> intro _ <;> rfl

/-- The last attempt meets it too. -/
theorem handshake_inv (inbox : List Input) : (handshake 5 inbox).Inv where
  busyIff := by simp [handshake, block]
  home := rfl
  attemptLow := show 1 ≤ 5 by decide
  attemptHigh := Nat.le_refl 5
  latched := nofun
  outstanding := fun _ => rfl

/-- And so does a READ that awaits a frame of the kind its length selects. -/
theorem awaiting_inv (inbox : List Input) : (awaiting .touch0 7 inbox).Inv := block_inv .ready .readFrame inbox rfl

theorem wit_ClassifyIsTheLengthMap :
    classify 0 = .invalid 0 ∧ classify 26 = .invalid 26 ∧ classify 28 = .invalid 28 ∧ classify 65535 = .invalid 65535 ∧
    classify 2 = .empty ∧ classify 27 = .touch2 := by decide
theorem wit_FrameLenOfClassified :
    frameLen (classify 7) = some 7 ∧ frameLen (classify 14) = some 14 ∧ frameLen (classify 17) = some 17 ∧
    frameLen (classify 27) = some 27 := by decide
theorem wit_DecodeOfEncode : (Instr.invalid 65535).wf = true ∧ Instr.touch2.wf = true ∧ Instr.readCmd.wf = true := by decide
theorem wit_EncodeOfDecode :
    decode (.command 2) = .ok .readCmd ∧ decode (.frame [0x00, 0x00]) = .ok (.invalid 0) ∧
    decode (.frame frame2) = .ok .touch2 := by decide
theorem wit_LittleEndianAssembly : 0 + 1 < [(0xFF : Byte), 0xFF].length ∧ 25 + 1 < frame2.length := by decide
theorem wit_UnpackTouchReportFields : frame0.length = 7 := by decide
theorem wit_UnpackTouchRecordFields : (List.replicate 10 (0xFF : Byte)).length = 10 := by decide
theorem wit_UnpackButtonRecordFields : frameB.length = 14 := by decide
theorem wit_TouchPartsRoundTrip : frame0.length = 7 ∧ (slice frame2 17 27).length = 10 := by decide
theorem wit_ButtonRoundTrip : frameB.length = 14 := by decide
theorem wit_FrameRoundTrip :
    eventKind event0 = some .touch0 ∧ eventKind event2 = some .touch2 ∧ eventKind eventB = some .button ∧
    decodeFrame .touch0 frame0 = .ok event0 ∧ decodeFrame .touch1 frame1 = .ok event1 ∧
    decodeFrame .touch2 frame2 = .ok event2 ∧ decodeFrame .button frameB = .ok eventB := by decide
theorem wit_PaddingIgnored :
    clearPadding .touch0 frame0 = clearPadding .touch0 [0x07, 0x00, 0x01, 0x34, 0x12, 0xED, 0xBB] ∧
    frame0 ≠ [0x07, 0x00, 0x01, 0x34, 0x12, 0xED, 0xBB] := by decide
theorem wit_DecodeFrameByKind :
    frameLen .touch2 = some 27 ∧ frame1.length ≠ 27 ∧ frame0.length = 7 ∧ frame1.length = 17 ∧ frame2.length = 27 ∧
    frameB.length = 14 := by decide
theorem wit_OnlySizeIsChecked : frameLen .button = some 14 ∧ (List.replicate 14 (0xFF : Byte)).length = 14 := by decide

theorem wit_EmptyMeaning : (block .ready .readLen []).phase = .readLen ∧ (handshake 5 []).phase = .openLen := by decide
theorem wit_InvalidMeaning :
    (Instr.invalid 0).wf = true ∧ (Instr.invalid 65535).wf = true ∧ (block .ready .readLen []).phase = .readLen ∧
    (handshake 4 []).phase = .openLen ∧ (handshake 4 []).attempt < 5 ∧ (handshake 5 []).phase = .openLen ∧
    (handshake 5 []).attempt = 5 := by decide
theorem wit_TouchKindsMeaning :
    (block .ready .readLen []).phase = .readLen ∧ (awaiting .touch2 27 []).phase = .readFrame ∧
    (awaiting .touch2 27 [.bus (.busErr busInfo)]).inbox = [.bus (.busErr busInfo)] ∧
    (awaiting .touch0 7 [.bus (.ok [])]).inbox = [.bus (.ok [])] ∧ ([] : List Byte).length ≠ 7 ∧
    (awaiting .touch1 17 [.bus (.ok frame2)]).inbox = [.bus (.ok frame2)] ∧ frame2.length ≠ 17 ∧
    (awaiting .touch2 27 [.bus (.ok frame2)]).inbox = [.bus (.ok frame2)] ∧ frame2.length = 27 := by decide
theorem wit_ButtonMeaning :
    (block .ready .readLen []).phase = .readLen ∧ (awaiting .button 14 []).phase = .readFrame ∧
    (awaiting .button 14 [.bus (.busErr busInfo)]).inbox = [.bus (.busErr busInfo)] ∧
    (awaiting .button 14 [.bus (.ok (frameB.take 13))]).inbox = [.bus (.ok (frameB.take 13))] ∧ (frameB.take 13).length ≠ 14 ∧
    (awaiting .button 14 [.bus (.ok frameB)]).inbox = [.bus (.ok frameB)] ∧ frameB.length = 14 := by decide
theorem wit_FrameLengthsInHandshake :
    frameLen .touch0 = some 7 ∧ frameLen .touch2 = some 27 ∧ (handshake 4 []).phase = .openLen ∧ (handshake 4 []).attempt < 5 ∧
    (handshake 5 []).phase = .openLen ∧ (handshake 5 []).attempt = 5 := by decide
theorem wit_KindsStopOutsideReads :
    State.reset.phase = .idle ∧ (block .ready .querySig []).phase = .querySig ∧ (block .ready .readSig []).phase = .readSig ∧
    frameLen .empty = none ∧ frameLen (.invalid 0) = none ∧ (awaiting .empty 2 []).phase = .readFrame := by decide

theorem wit_CommandsStart :
    State.reset.phase = .idle ∧ State.reset.busy = false ∧ State.reset.sess = .uninitialized ∧
    (block .ready .idle []).phase = .idle ∧ (block .ready .idle []).busy = false ∧ (block .ready .idle []).sess = .ready := by decide
theorem wit_WrongStateRefused :
    State.reset.phase = .idle ∧ State.reset.busy = false ∧ State.reset.sess ≠ .ready ∧
    (block .ready .idle []).phase = .idle ∧ (block .ready .idle []).busy = false ∧ (block .ready .idle []).sess ≠ .uninitialized ∧
    (block .faulted .idle []).phase = .idle ∧ (block .faulted .idle []).busy = false ∧
    (block .faulted .idle []).sess ≠ .uninitialized ∧ (block .faulted .idle []).sess ≠ .ready := by decide
theorem wit_HandshakeAnswers :
    (handshake 5 [.bus (.busErr busInfo)]).phase = .openLen ∧ (handshake 5 [.bus (.busErr busInfo)]).inbox = [.bus (.busErr busInfo)] ∧
    (handshake 1 [.bus (.ok [0x02])]).inbox = [.bus (.ok [0x02])] ∧ [(0x02 : Byte)].length ≠ 2 ∧
    (handshake 5 [.bus (.ok [0x02, 0x00])]).inbox = [.bus (.ok [0x02, 0x00])] ∧ le16 [0x02, 0x00] 0 = 2 ∧
    (handshake 4 [.bus (.ok [0x02, 0x01])]).inbox = [.bus (.ok [0x02, 0x01])] ∧ le16 [0x02, 0x01] 0 ≠ 2 ∧
    (handshake 4 [.bus (.ok [0x02, 0x01])]).attempt < 5 ∧ (handshake 5 [.bus (.ok [0x02, 0x01])]).attempt = 5 := by decide
theorem wit_QueryAnswers :
    (block .ready .querySig [.sig (.line .low)]).phase = .querySig ∧
    (block .ready .querySig [.sig (.line .low)]).inbox = [.sig (.line .low)] ∧
    (block .ready .querySig [.sig (.line .high)]).inbox = [.sig (.line .high)] ∧
    (block .ready .querySig [.sig (.ioErr ioInfo)]).inbox = [.sig (.ioErr ioInfo)] := by decide
theorem wit_ReadAnswers :
    (block .ready .readSig [.sig (.ioErr ioInfo)]).phase = .readSig ∧
    (block .ready .readSig [.sig (.ioErr ioInfo)]).inbox = [.sig (.ioErr ioInfo)] ∧
    (block .ready .readSig [.sig (.line .high)]).inbox = [.sig (.line .high)] ∧
    (block .ready .readSig [.sig (.line .low)]).inbox = [.sig (.line .low)] ∧
    (block .ready .readLen [.bus (.busErr busInfo)]).phase = .readLen ∧
    (block .ready .readLen [.bus (.busErr busInfo)]).inbox = [.bus (.busErr busInfo)] ∧
    (block .ready .readLen [.bus (.ok [0x07])]).inbox = [.bus (.ok [0x07])] ∧ [(0x07 : Byte)].length ≠ 2 := by decide
theorem wit_ReadGoesOnAsItsKind :
    (block .ready .readLen [.bus (.ok [0x1B, 0x00])]).phase = .readLen ∧
    (block .ready .readLen [.bus (.ok [0x1B, 0x00])]).inbox = [.bus (.ok [0x1B, 0x00])] ∧ [(0x1B : Byte), 0x00].length = 2 ∧
    decode (.frame [0x1B, 0x00]) = .ok .touch2 ∧ (awaiting .touch2 27 []).phase = .readFrame := by decide
theorem wit_QueryCommand :
    (block .faulted .idle [.command 1]).phase = .idle ∧ (block .faulted .idle [.command 1]).busy = false ∧
    (block .faulted .idle [.command 1]).sess ≠ .ready ∧ (block .faulted .idle [.command 1]).inbox = [.command 1] ∧
    (block .ready .idle [.command 1, .sig (.line .low)]).inbox = [.command 1, .sig (.line .low)] ∧
    (block .ready .idle [.command 1, .sig (.line .high)]).inbox = [.command 1, .sig (.line .high)] ∧
    (block .ready .idle [.command 1, .sig (.ioErr ioInfo)]).inbox = [.command 1, .sig (.ioErr ioInfo)] ∧
    (block .ready .idle []).sess = .ready := by decide

/-- Five answers that are not the sentinel, the last `1B 00` (P2). -/
def answersP2 : List BusAnswer := [.ok [0x00, 0x00], .ok [0x07, 0x00], .ok [0x0E, 0x00], .ok [0x03, 0x00], .ok [0x1B, 0x00]]

theorem wit_OpenCommand :
    (block .ready .idle [.command 0]).phase = .idle ∧ (block .ready .idle [.command 0]).busy = false ∧
    (block .ready .idle [.command 0]).sess ≠ .uninitialized ∧ (block .ready .idle [.command 0]).inbox = [.command 0] ∧
    (block .uninitialized .idle (.command 0 :: answersP2.map .bus)).sess = .uninitialized ∧
    (block .uninitialized .idle (.command 0 :: answersP2.map .bus)).inbox = .command 0 :: (answersP2.map .bus ++ []) ∧
    ((openLoop 1 7 answersP2).map fun e => (e.response, e.sess, e.attempt, e.lenLatch)) =
      some (.err (.invalidMessageLen 27), .faulted, 5, 27) := by decide

theorem wit_ReadCommand :
    (block .faulted .idle [.command 2]).phase = .idle ∧ (block .faulted .idle [.command 2]).busy = false ∧
    (block .faulted .idle [.command 2]).sess ≠ .ready ∧ (block .faulted .idle [.command 2]).inbox = [.command 2] ∧
    (block .ready .idle [.command 2, .sig (.line .low), .bus (.ok [0x11, 0x00]), .bus (.ok frame1)]).inbox =
      .command 2 :: .sig (.line .low) :: ([BusAnswer.ok [0x11, 0x00], .ok frame1].map .bus ++ []) ∧
    ((readCommand (block .ready .idle []) (.line .low) [.ok [0x11, 0x00], .ok frame1]).map fun e =>
        (e.response, e.requests, e.used, e.lenLatch)) =
      some (.readOk event1, [.signalQuery, .memRead 0x24 0 2, .memRead 0x24 0 17], 2, 17) ∧
    ((readCommand (block .ready .idle []) (.line .low) [.ok [0x11, 0x00], .ok frame1]).map fun e =>
        (e.kindLatch, e.frameCnt, e.stored)) = some (.touch1, 17, some frame1) ∧
    ((readCommand (block .ready .idle []) (.line .high) []).map fun e => (e.response, e.used, e.stored)) =
      some (.err .noDataAvailable, 0, none) := by decide

theorem wit_AnsweredCommandsEnd :
    (block .uninitialized .idle (.command 0 :: answersP2.map .bus)).Quiescent ∧ answersP2.length = 5 ∧
    (block .ready .idle [.command 1, .sig (.line .low)]).Quiescent ∧
    (block .ready .idle [.command 2, .sig (.line .low), .bus (.ok [0x11, 0x00]), .bus (.ok frame1)]).Quiescent ∧
    [BusAnswer.ok [0x11, 0x00], .ok frame1].length = 2 := ⟨⟨rfl, rfl⟩, rfl, ⟨rfl, rfl⟩, ⟨rfl, rfl⟩, rfl⟩

theorem wit_OpenFrame :
    (∃ t, exec .openCmd State.reset = .next t) ∧ State.reset.phase = .idle ∧
    (∃ t, exec .openCmd (handshake 5 [.bus (.ok [0x03, 0x00])]) = .next t) := ⟨⟨_, rfl⟩, rfl, _, rfl⟩
theorem wit_QueryFrame :
    (∃ t, exec .queryCmd (block .ready .idle []) = .next t) ∧ (block .ready .idle []).phase = .idle ∧
    (∃ t, exec .queryCmd (block .ready .querySig [.sig (.line .low)]) = .next t) := ⟨⟨_, rfl⟩, rfl, _, rfl⟩
theorem wit_ReadFrame :
    (∃ t, exec .readCmd (block .ready .idle []) = .next t) ∧ (block .ready .idle []).phase = .idle ∧
    (∃ t, exec .readCmd (awaiting .touch0 7 [.bus (.ok [])]) = .next t) ∧ frameLen .touch0 ≠ some ([] : List Byte).length :=
  ⟨⟨_, rfl⟩, rfl, ⟨_, rfl⟩, by decide⟩
theorem wit_EmptyInvalidFrame :
    (∃ t, exec .empty (block .ready .readLen []) = .next t) ∧ (block .ready .readLen []).phase = .readLen ∧
    (∃ t, exec (.invalid 3) (handshake 5 []) = .next t) ∧ (handshake 5 []).phase = .openLen := ⟨⟨_, rfl⟩, rfl, ⟨_, rfl⟩, rfl⟩
theorem wit_FrameKindsFrame :
    frameLen .touch1 = some 17 ∧ (∃ t, exec (instrOfKind .touch1) (block .ready .readLen []) = .next t) ∧
    (∃ t, exec (instrOfKind .touch1) (handshake 4 []) = .next t) ∧
    (∃ t, exec (instrOfKind .touch1) (awaiting .touch1 17 [.bus (.ok [])]) = .next t) ∧ ([] : List Byte).length ≠ 17 :=
  ⟨rfl, ⟨_, rfl⟩, ⟨_, rfl⟩, ⟨_, rfl⟩, by decide⟩

theorem wit_StepRunsDecodedInstruction :
    (block .ready .idle [.command 2]).inbox = [.command 2] ∧ decode (.command 2) = .ok .readCmd ∧
    (block .ready .idle [.command 2]).phase = .idle ∧ (block .ready .idle [.command 2]).busy = false ∧
    (block .ready .readLen [.bus (.ok [0x09, 0x00])]).inbox = [.bus (.ok [0x09, 0x00])] ∧
    (block .ready .readLen [.bus (.ok [0x09, 0x00])]).phase = .readLen ∧ [(0x09 : Byte), 0x00].length = 2 ∧
    decode (.frame [0x09, 0x00]) = .ok (.invalid 9) ∧ (handshake 1 []).inbox = [] ∧ (handshake 1 []).phase = .openLen ∧
    (block .ready .querySig []).phase = .querySig ∧ (block .ready .readSig []).phase = .readSig ∧
    (block .ready .readLen []).phase = .readLen ∧ (awaiting .touch0 7 []).phase = .readFrame := by decide

theorem wit_StepIsTheTransitionTable :
    (awaiting .touch0 7 [.bus (.ok frame0)]).Inv ∧ (awaiting .touch0 7 [.bus (.ok frame0)]).inbox = [.bus (.ok frame0)] ∧
    (awaiting .touch0 7 [.bus (.ok frame0)]).TableEvent (.bus (.ok frame0)) ∧
    (block .ready .querySig [.sig (.line .low)]).Inv ∧ (block .ready .querySig []).TableEvent (.sig (.line .low)) ∧
    (block .ready .idle [.command 2]).Inv ∧ (block .ready .idle [.command 2]).TableEvent (.command 2) ∧
    (awaiting .touch0 7 []).phase ≠ .idle ∧ (awaiting .touch0 7 []).inbox = [] :=
  ⟨awaiting_inv _, rfl, nofun, block_inv _ _ _ rfl, nofun, block_inv _ _ _ trivial, show (2 : BitVec 2) ≠ 3 by decide, nofun, rfl⟩

theorem wit_ResetStateRegisters :
    (awaiting .touch0 7 [.reset]).inbox = [.reset] ∧ (block .faulted .idle [.command 0]).Inv ∧
    (block .faulted .idle [.command 0]).sess = .faulted ∧ (∃ t, step (block .faulted .idle [.command 0]) = .next t) ∧
    (block .ready .querySig [.sig (.line .low)]).Inv ∧ (block .ready .querySig [.sig (.line .low)]).sess = .ready ∧
    ∃ t, step (block .ready .querySig [.sig (.line .low)]) = .next t :=
  ⟨rfl, block_inv _ _ _ trivial, rfl, ⟨_, rfl⟩, block_inv _ _ _ rfl, rfl, _, rfl⟩
theorem wit_ResetAbandonsCommand :
    (awaiting .touch0 7 [.reset]).inbox = [.reset] ∧ (awaiting .touch0 7 [.reset]).busy = true ∧
    (block .uninitialized .idle [.bus (.ok frame0)]).phase = .idle ∧
    (block .uninitialized .idle [.bus (.ok frame0)]).inbox = [.bus (.ok frame0)] ∧
    (block .uninitialized .idle [.sig (.line .low)]).inbox = [.sig (.line .low)] := by decide
theorem wit_IdleBlockDoesNothing : State.reset.phase = .idle ∧ State.reset.inbox = [] := by decide
theorem wit_UnansweredRequestIsStuck :
    (handshake 5 []).Inv ∧ (handshake 5 []).phase ≠ .idle ∧ (handshake 5 []).inbox = [] ∧
    (block .ready .querySig [.reset]).Inv ∧ (block .ready .querySig [.reset]).phase ≠ .idle ∧
    (block .ready .querySig [.reset]).inbox = [.reset] := ⟨handshake_inv _, nofun, rfl, block_inv _ _ _ rfl, nofun, rfl⟩
theorem wit_CodeThreeHasNoEffect :
    State.reset.inbox = [] ∧ (block .ready .readSig [.command 3]).inbox = [.command 3] ∧
    (block .ready .idle [.command 3]).inbox = [.command 3] := by decide
theorem wit_UnsolicitedMovesStop :
    (block .ready .readSig [.command 2]).inbox = [.command 2] ∧ (2 : BitVec 2) ≠ 3 ∧ (block .ready .readSig [.command 2]).phase ≠ .idle ∧
    (handshake 5 [.sig (.line .low)]).Inv ∧ (handshake 5 [.sig (.line .low)]).inbox = [.sig (.line .low)] ∧
    (handshake 5 [.sig (.line .low)]).phase = .openLen ∧ (block .ready .readLen [.sig (.line .low)]).Inv ∧
    (block .ready .readLen [.sig (.line .low)]).phase = .readLen ∧ (awaiting .touch0 7 [.sig (.line .low)]).Inv ∧
    (awaiting .touch0 7 [.sig (.line .low)]).phase = .readFrame ∧
    (block .ready .querySig [.bus (.ok [])]).inbox = [.bus (.ok [])] ∧ (block .ready .querySig [.bus (.ok [])]).phase = .querySig ∧
    (block .ready .readSig [.bus (.ok [])]).phase = .readSig :=
  ⟨rfl, by decide, nofun, handshake_inv _, rfl, rfl, block_inv _ _ _ rfl, rfl, awaiting_inv _, rfl, rfl, rfl, rfl⟩

theorem wit_StepKeepsInvariant :
    (handshake 5 [.bus (.ok [0x03, 0x00])]).Inv ∧ ∃ t, step (handshake 5 [.bus (.ok [0x03, 0x00])]) = .next t :=
  ⟨handshake_inv _, _, rfl⟩
theorem wit_OutputsAreLegal : ∃ t, step (block .ready .readLen [.bus (.ok [0x1B, 0x00])]) = .next t := ⟨_, rfl⟩
/-- Both cases: a step that makes an exchange, and one that makes none. -/
theorem wit_OnlyAddressingOnTheBus :
    (∃ t, step (block .ready .readSig [.sig (.line .low)]) = .next t ∧
      t.outbox = (block .ready .readSig []).outbox ++ [.request (.memRead 0x24 0 2)]) ∧
    ∃ t, step (block .ready .readSig [.sig (.line .high)]) = .next t ∧
      t.outbox = (block .ready .readSig []).outbox ++ [.response (.err .noDataAvailable)] := ⟨⟨_, rfl, rfl⟩, _, rfl, rfl⟩
theorem wit_SessionTransitions :
    (handshake 5 [.bus (.ok [0x03, 0x00])]).Inv ∧ (∃ t, step (handshake 5 [.bus (.ok [0x03, 0x00])]) = .next t ∧ t.sess = .faulted) ∧
    (handshake 5 [.bus (.ok [0x02, 0x00])]).Inv ∧ ∃ t, step (handshake 5 [.bus (.ok [0x02, 0x00])]) = .next t ∧ t.sess = .ready :=
  ⟨handshake_inv _, ⟨_, rfl, rfl⟩, handshake_inv _, _, rfl, rfl⟩
theorem wit_StateAfterError :
    (handshake 5 [.bus (.ok [0x03, 0x00])]).Inv ∧
    (∃ t, step (handshake 5 [.bus (.ok [0x03, 0x00])]) = .next t ∧
      t.outbox = (handshake 5 []).outbox ++ [.response (.err (.invalidMessageLen 3))]) ∧
    (block .faulted .idle [.command 2]).Inv ∧
    ∃ t, step (block .faulted .idle [.command 2]) = .next t ∧ t.outbox = [] ++ [.response (.refused .wrongState)] :=
  ⟨handshake_inv _, ⟨_, rfl, rfl⟩, block_inv _ _ _ trivial, _, rfl, rfl⟩
theorem wit_ResponsesOfCommands :
    ∃ t, step (block .ready .readLen [.bus (.ok [0xFF, 0xFF])]) = .next t ∧
      t.outbox = (block .ready .readLen []).outbox ++ [.response (.err (.invalidMessageLen 65535))] := ⟨_, rfl, rfl⟩
theorem wit_CommandEndsWithOneResponse :
    (block .ready .querySig [.sig (.line .high)]).Inv ∧ (block .ready .querySig [.sig (.line .high)]).busy = true ∧
    ∃ t, step (block .ready .querySig [.sig (.line .high)]) = .next t := ⟨block_inv _ _ _ rfl, rfl, _, rfl⟩
theorem wit_FullAnswersNeverMismatch :
    (awaiting .touch0 7 [.bus (.ok frame0)]).Inv ∧
    (∀ buf rest a w n, (awaiting .touch0 7 [.bus (.ok frame0)]).inbox = .bus (.ok buf) :: rest →
      (awaiting .touch0 7 [.bus (.ok frame0)]).awaited = some (.memRead a w n) → buf.length = n) ∧
    ∃ t, step (awaiting .touch0 7 [.bus (.ok frame0)]) = .next t :=
  ⟨awaiting_inv _, fun _ _ _ _ _ hi ha => by cases hi; cases ha; rfl, _, rfl⟩
/-- Two blocks that differ in every working register out of use. -/
theorem wit_WorkingRegistersUnobservable :
    State.Alike (block .ready .readLen []) { block .ready .readLen [] with attempt := 5, lenLatch := 9, kindLatch := .button, frameCnt := 28 } :=
  ⟨rfl, rfl, rfl, rfl, rfl, nofun, nofun⟩

end Sys2Proof.Tests
end

namespace Sys2Proof

/-! ## Byte order (R11) -/

/-- No wrap is lost: the largest value, `255 + 256 * 255`, fits in the word. -/
@[simp] theorem toNat_le16 (b : List Byte) (i : Nat) :
    (le16 b i).toNat = (byteAt b i).toNat + 256 * (byteAt b (i + 1)).toNat := by
  have hlo := (byteAt b i).isLt
  have hhi := (byteAt b (i + 1)).isLt
  simp only [le16, BitVec.toNat_add, BitVec.toNat_mul, BitVec.toNat_setWidth, BitVec.reduceToNat]
  omega

/-- Settles O6: the value of `le16` is the sum over `byteAt`, which inside the buffer is indexing. -/
theorem littleEndianAssembly : Obligations.LittleEndianAssembly := by
  intro b i h
  rw [toNat_le16, byteAt_eq_getElem (Nat.lt_of_succ_lt h), byteAt_eq_getElem h]

end Sys2Proof

namespace Sys2Proof.Machine

/-! ## No working register survives a command (R23)

`State.Alike` is kept by every operation, hence by every instruction, by the step and by any number of steps. The two registers it
compares in one phase only are each written on the way into that phase: `attempt` before OPEN's length read, `kind_latch` before
READ's frame read. -/

section WorkingRegisters

variable {s t : State}

theorem inbox_alike (h : s.Alike t) (rest : List Input) :
    State.Alike { s with inbox := rest } { t with inbox := rest } :=
  ⟨h.sess, h.busy, h.phase, rfl, h.outbox, h.attempt, h.kind⟩

theorem sess_alike (h : s.Alike t) (x : SessionState) : State.Alike { s with sess := x } { t with sess := x } :=
  ⟨rfl, h.busy, h.phase, h.inbox, h.outbox, h.attempt, h.kind⟩

theorem setBusy_alike (h : s.Alike t) : (setBusy s).Alike (setBusy t) :=
  ⟨h.sess, rfl, h.phase, h.inbox, h.outbox, h.attempt, h.kind⟩

theorem attempt_alike (h : s.Alike t) (n : Nat) : State.Alike { s with attempt := n } { t with attempt := n } :=
  ⟨h.sess, h.busy, h.phase, h.inbox, h.outbox, fun _ => rfl, h.kind⟩

theorem frameCnt_alike (h : s.Alike t) (n : Nat) : State.Alike { s with frameCnt := n } { t with frameCnt := n } :=
  ⟨h.sess, h.busy, h.phase, h.inbox, h.outbox, h.attempt, h.kind⟩

theorem latchLen_alike (h : s.Alike t) (v : Word) : (latchLen v s).Alike (latchLen v t) :=
  ⟨h.sess, h.busy, h.phase, h.inbox, h.outbox, h.attempt, h.kind⟩

theorem latchKind_alike (h : s.Alike t) (k : Kind) : (latchKind k s).Alike (latchKind k t) :=
  ⟨h.sess, h.busy, h.phase, h.inbox, h.outbox, h.attempt, fun _ => rfl⟩

theorem storeFrame_alike (h : s.Alike t) (buf : List Byte) : (storeFrame buf s).Alike (storeFrame buf t) :=
  ⟨h.sess, h.busy, h.phase, h.inbox, h.outbox, h.attempt, h.kind⟩

/-- The free values a reset takes go to registers that are out of use in `IDLE`. -/
theorem resetBlock_alike (h : s.Alike t) : (resetBlock s).Alike (resetBlock t) :=
  ⟨rfl, rfl, rfl, h.inbox, h.outbox, nofun, nofun⟩

/-- A request brings into use the register of the phase it enters, which must agree by then. -/
theorem request_alike (h : s.Alike t) (r : Request) {p : Phase} (ha : p = .openLen → s.attempt = t.attempt)
    (hk : p = .readFrame → s.kindLatch = t.kindLatch) : (request r p s).Alike (request r p t) :=
  ⟨h.sess, h.busy, rfl, h.inbox, by simp [h.outbox], ha, hk⟩

theorem respond_alike (h : s.Alike t) (r : Response) : (respond r s).Alike (respond r t) :=
  ⟨h.sess, rfl, rfl, h.inbox, by simp [h.outbox], nofun, nofun⟩

theorem raiseErr_alike (h : s.Alike t) (e : ErrorKind) : (raiseErr e s).Alike (raiseErr e t) :=
  ⟨by simp [h.sess, h.phase], rfl, rfl, h.inbox, by simp [h.outbox], nofun, nofun⟩

theorem refuse_alike (h : s.Alike t) : (refuse s).Alike (refuse t) :=
  ⟨h.sess, h.busy, h.phase, h.inbox, by simp [h.outbox], h.attempt, h.kind⟩

/-! ### The shared operations -/

theorem accept_alike (h : s.Alike t) (av : Bool) {start : State → State}
    (hs : (start (setBusy s)).Alike (start (setBusy t))) : OutcomesAlike (accept av start s) (accept av start t) := by
  unfold accept
  rw [← h.busy]
  cases s.busy <;> cases av
  · exact refuse_alike h
  · exact hs
  · rfl
  · rfl

theorem onBusAnswer_alike (h : s.Alike t) {k : BusAnswer → State → Outcome}
    (hk : ∀ a rest, OutcomesAlike (k a { s with inbox := rest }) (k a { t with inbox := rest })) :
    OutcomesAlike (onBusAnswer k s) (onBusAnswer k t) := by
  unfold onBusAnswer
  rw [← h.inbox]
  split
  · rfl
  · exact hk _ _
  all_goals rfl

theorem onSigAnswer_alike (h : s.Alike t) {k : SigAnswer → State → Outcome}
    (hk : ∀ a rest, OutcomesAlike (k a { s with inbox := rest }) (k a { t with inbox := rest })) :
    OutcomesAlike (onSigAnswer k s) (onSigAnswer k t) := by
  unfold onSigAnswer
  rw [← h.inbox]
  split
  · rfl
  · exact hk _ _
  all_goals rfl

/-- In a handshake `attempt` is in use, so the two states take the same branch. -/
theorem handshakeValue_alike (h : s.Alike t) (hp : s.phase = .openLen) (v : Word) :
    (handshakeValue v s).Alike (handshakeValue v t) := by
  have ha := h.attempt hp
  by_cases hv : v = Config.sentinelLen
  · simp only [handshakeValue, latchLen_lenLatch, hv, if_true]
    exact respond_alike (sess_alike (latchLen_alike h Config.sentinelLen) .ready) _
  by_cases hn : s.attempt < Config.handshakeAttempts
  · simp only [handshakeValue, latchLen_lenLatch, latchLen_attempt, ← ha, hv, hn, if_true, if_false]
    exact request_alike (attempt_alike (latchLen_alike h v) _) _ (fun _ => rfl) nofun
  · simp only [handshakeValue, latchLen_lenLatch, latchLen_attempt, ← ha, hv, hn, if_false]
    exact raiseErr_alike (latchLen_alike h v) _

theorem deliverFrame_alike (h : s.Alike t) (r : Except FrameError Event) :
    (deliverFrame r s).Alike (deliverFrame r t) := by
  cases r with
  | ok ev => exact respond_alike h _
  | error _ => exact raiseErr_alike h _

/-- The event is decoded from the answer's own bytes, never from bytes that stood in `frame_buf` before or from free values. -/
theorem receiveFrame_alike (h : s.Alike t) (k : Kind) (a : BusAnswer) :
    (receiveFrame k a s).Alike (receiveFrame k a t) := by
  cases a with
  | busErr e => exact raiseErr_alike h _
  | ok buf =>
    have hc := frameCnt_alike h buf.length
    by_cases hk : some buf.length = frameLen k
    · have hle : buf.length ≤ 27 := frameLen_le hk.symm
      simp only [receiveFrame, if_pos hk, storeFrame_frameCnt, frame_storeFrame hle]
      exact deliverFrame_alike (storeFrame_alike hc buf) _
    · simp only [receiveFrame, if_neg hk]
      exact raiseErr_alike hc _

/-! ### The instructions -/

theorem frameKind_alike (h : s.Alike t) (k : Kind) (n : Nat) : OutcomesAlike (frameKind k n s) (frameKind k n t) := by
  unfold frameKind
  rw [← h.phase]
  cases hp : s.phase with
  | openLen => exact handshakeValue_alike h hp _
  | readLen => exact request_alike (latchKind_alike (latchLen_alike h _) k) _ nofun (fun _ => rfl)
  | readFrame => exact onBusAnswer_alike h fun a rest => receiveFrame_alike (inbox_alike h rest) k a
  | idle | querySig | readSig => rfl

theorem errorKind_alike (h : s.Alike t) (k : Kind) (v : Word) (e : ErrorKind) :
    OutcomesAlike (errorKind k v e s) (errorKind k v e t) := by
  unfold errorKind
  rw [← h.phase]
  cases hp : s.phase with
  | openLen => exact handshakeValue_alike h hp v
  | readLen => exact raiseErr_alike (latchKind_alike (latchLen_alike h v) k) e
  | idle | querySig | readSig | readFrame => rfl

theorem runKind_alike (h : s.Alike t) (k : Kind) : OutcomesAlike (runKind k s) (runKind k t) := by
  cases k with
  | empty | invalid => exact errorKind_alike h _ _ _
  | touch0 | touch1 | touch2 | button => exact frameKind_alike h _ _

theorem openAnswer_alike (h : s.Alike t) (hp : s.phase = .openLen) (a : BusAnswer) :
    (openAnswer a s).Alike (openAnswer a t) := by
  unfold openAnswer
  cases lengthOf a with
  | ok v => exact handshakeValue_alike h hp v
  | error e => exact raiseErr_alike h e

theorem queryAnswer_alike (h : s.Alike t) (a : SigAnswer) : (queryAnswer a s).Alike (queryAnswer a t) := by
  cases a with
  | line l => exact respond_alike h _
  | ioErr e => exact raiseErr_alike h _

theorem signalAnswer_alike (h : s.Alike t) (a : SigAnswer) : (signalAnswer a s).Alike (signalAnswer a t) := by
  cases a with
  | line l =>
    cases l with
    | low => exact request_alike h _ nofun nofun
    | high => exact raiseErr_alike h _
  | ioErr e => exact raiseErr_alike h _

theorem lengthAnswer_alike (h : s.Alike t) (a : BusAnswer) : OutcomesAlike (lengthAnswer a s) (lengthAnswer a t) := by
  unfold lengthAnswer
  cases lengthOf a with
  | ok v => exact runKind_alike h _
  | error e => exact raiseErr_alike h e

theorem execOpen_alike (h : s.Alike t) : OutcomesAlike (execOpen s) (execOpen t) := by
  unfold execOpen
  rw [← h.phase, ← h.sess]
  cases hp : s.phase with
  | idle => exact accept_alike h _ (request_alike (attempt_alike (setBusy_alike h) 1) _ (fun _ => rfl) nofun)
  | openLen => exact onBusAnswer_alike h fun a rest => openAnswer_alike (inbox_alike h rest) hp a
  | querySig | readSig | readLen | readFrame => rfl

theorem execQuery_alike (h : s.Alike t) : OutcomesAlike (execQuery s) (execQuery t) := by
  unfold execQuery
  rw [← h.phase, ← h.sess]
  cases s.phase with
  | idle => exact accept_alike h _ (request_alike (setBusy_alike h) _ nofun nofun)
  | querySig => exact onSigAnswer_alike h fun a rest => queryAnswer_alike (inbox_alike h rest) a
  | openLen | readSig | readLen | readFrame => rfl

/-- In a frame read `kind_latch` is in use, so the two states run the same kind. -/
theorem execRead_alike (h : s.Alike t) : OutcomesAlike (execRead s) (execRead t) := by
  unfold execRead
  rw [← h.phase, ← h.sess]
  cases hp : s.phase with
  | idle => exact accept_alike h _ (request_alike (setBusy_alike h) _ nofun nofun)
  | readSig => exact onSigAnswer_alike h fun a rest => signalAnswer_alike (inbox_alike h rest) a
  | readLen => exact onBusAnswer_alike h fun a rest => lengthAnswer_alike (inbox_alike h rest) a
  | readFrame => rw [← h.kind hp]; exact runKind_alike h _
  | openLen | querySig => rfl

/-- Every instruction, in every phase, treats alike states alike. -/
theorem exec_alike (h : s.Alike t) (i : Instr) : OutcomesAlike (exec i s) (exec i t) := by
  cases i with
  | empty | invalid => exact errorKind_alike h _ _ _
  | touch0 | button | touch1 | touch2 => exact frameKind_alike h _ _
  | openCmd => exact execOpen_alike h
  | queryCmd => exact execQuery_alike h
  | readCmd => exact execRead_alike h

/-! ### The step -/

theorem step_command_alike (h : s.Alike t) {c : BitVec 2} {rest : List Input} (hi : s.inbox = .command c :: rest) :
    OutcomesAlike (step s) (step t) := by
  have hi' : t.inbox = .command c :: rest := h.inbox ▸ hi
  have hr := inbox_alike h rest
  cases hd : decodeCommand c with
  | error e => rw [step_command_none hi hd, step_command_none hi' hd]; exact hr
  | ok i =>
    by_cases hp : s.phase = .idle ∧ s.busy = false
    · obtain ⟨hidle, hb⟩ := hp
      rw [step_command_idle hi hd hidle hb, step_command_idle hi' hd (h.phase ▸ hidle) (h.busy ▸ hb)]
      exact exec_alike hr i
    · rw [step_command_busy hi hd hp, step_command_busy hi' hd (by rwa [← h.phase, ← h.busy])]
      rfl

theorem fetchPrefix_alike (h : s.Alike t) :
    ∃ i u v, fetchPrefix s = .run i u ∧ fetchPrefix t = .run i v ∧ u.Alike v := by
  by_cases hb : ∃ buf rest, s.inbox = .bus (.ok buf) :: rest ∧ buf.length = 2
  · obtain ⟨buf, rest, hi, hn⟩ := hb
    exact ⟨_, _, _, fetchPrefix_pair hi hn, fetchPrefix_pair (h.inbox ▸ hi) hn, inbox_alike h rest⟩
  · have ho : ∀ buf rest, s.inbox = .bus (.ok buf) :: rest → buf.length ≠ 2 := fun buf rest hi hn => hb ⟨buf, rest, hi, hn⟩
    exact ⟨_, _, _, fetchPrefix_other ho, fetchPrefix_other (h.inbox ▸ ho), h⟩

/-- A step that goes on with what is in progress: an idle block drops the move, a waiting one runs the same instruction. -/
theorem step_rest_alike (h : s.Alike t)
    (hm : ∀ m rest, s.inbox = m :: rest → (∃ a, m = .bus a) ∨ ∃ a, m = .sig a) : OutcomesAlike (step s) (step t) := by
  have hs := fetch_rest hm
  have ht := fetch_rest (s := t) (h.inbox ▸ hm)
  have hrun : ∀ {i u v}, fetchRest s = .run i u → fetchRest t = .run i v → u.Alike v → OutcomesAlike (step s) (step t) := by
    intro i u v hu hv huv
    rw [step_run (hs.trans hu), step_run (ht.trans hv)]
    exact exec_alike huv i
  cases hp : s.phase with
  | idle =>
    rw [step_settle (hs.trans (fetchRest_idle hp)), step_settle (ht.trans (fetchRest_idle (h.phase ▸ hp))), ← h.inbox]
    exact inbox_alike h _
  | openLen => exact hrun (fetchRest_openLen hp) (fetchRest_openLen (h.phase ▸ hp)) h
  | querySig => exact hrun (fetchRest_querySig hp) (fetchRest_querySig (h.phase ▸ hp)) h
  | readSig => exact hrun (fetchRest_readSig hp) (fetchRest_readSig (h.phase ▸ hp)) h
  | readLen =>
    obtain ⟨i, u, v, hu, hv, huv⟩ := fetchPrefix_alike h
    exact hrun ((fetchRest_readLen hp).trans hu) ((fetchRest_readLen (h.phase ▸ hp)).trans hv) huv
  | readFrame =>
    refine hrun (fetchRest_readFrame hp) ?_ h
    rw [h.kind hp]
    exact fetchRest_readFrame (h.phase ▸ hp)

/-- One step treats alike states alike. -/
theorem step_alike (h : s.Alike t) : OutcomesAlike (step s) (step t) := by
  cases hi : s.inbox with
  | nil => exact step_rest_alike h (by simp [hi])
  | cons m rest =>
    cases m with
    | reset =>
      rw [step_reset hi, step_reset (h.inbox ▸ hi)]
      exact resetBlock_alike (inbox_alike h rest)
    | command c => exact step_command_alike h hi
    | bus a => exact step_rest_alike h (by simp [hi])
    | sig a => exact step_rest_alike h (by simp [hi])

/-- Where a step stops, any further number of steps stops with it. -/
theorem steps_succ_fault {n : Nat} {f : Fault} (h : step s = .fault f) : steps (n + 1) s = .fault f := by
  have h' : core.step s = .fault f := h
  simp only [steps, Host.Core.run, h']
  rfl

theorem steps_succ_refused {n : Nat} {r : Refusal} (h : step s = .refused r) : steps (n + 1) s = .refused r := by
  have h' : core.step s = .refused r := h
  simp only [steps, Host.Core.run, h']
  rfl

end WorkingRegisters

/-- Settles O55, by induction on the number of steps: `step_alike` carries `State.Alike` from each pair of states to the next. -/
theorem workingRegistersUnobservable : Obligations.WorkingRegistersUnobservable := by
  intro n
  induction n with
  | zero => exact fun s t h => h
  | succ n ih =>
    intro s t h
    have hst := step_alike h
    cases hs : step s <;> cases ht : step t <;> rw [hs, ht] at hst
    case next.next u v => rw [steps_succ hs, steps_succ ht]; exact ih u v hst
    case fault.fault => rw [steps_succ_fault hs, steps_succ_fault ht]; exact hst
    case refused.refused => rw [steps_succ_refused hs, steps_succ_refused ht]; exact hst
    all_goals exact hst.elim

/-! ## The transitions of `sess` (R22) -/

/-- The two errors of a length read leave the session state (R169). -/
theorem sessAfter_lengthOf_error {a : BusAnswer} {e : ErrorKind} (h : lengthOf a = .error e) (p : Phase) (o : SessionState) :
    sessAfter p e o = o := by
  obtain ⟨_, _, rfl⟩ | ⟨_, _, _, rfl⟩ := lengthOf_error h
  · exact sessAfter_busError p _ o
  · exact sessAfter_sizeMismatch p o

/-- A handshake runs only in `Uninitialized` (R137). -/
theorem sess_of_openLen {s : State} (h : s.Inv) (hp : s.phase = .openLen) : s.sess = .uninitialized := by
  have hh := h.home
  rwa [hp] at hh

/-- Settles O50: of the moves of `step_moved`, only a reset and the two ends of a handshake write `sess`. -/
theorem sessionTransitions : Obligations.SessionTransitions := by
  intro s t hinv hstep
  cases step_moved hstep with
  | reset hi => exact .inr (.inl ⟨rfl, _, hi⟩)
  | openDone hi hp hl => exact .inr (.inr (.inl ⟨sess_of_openLen hinv hp, hp, rfl, rfl⟩))
  | openFaults hi hp hl hv ha => exact .inr (.inr (.inr ⟨sess_of_openLen hinv hp, hp, by simp [hp], _, rfl⟩))
  | openErr hi hp hl | lenErr hi hp hl => exact .inl (sessAfter_lengthOf_error hl _ _)
  | @lenInvalid _ v _ hi hp hl hv => exact .inl (sessAfter_invalid_other (p := s.phase) (by simp [hp]) v s.sess)
  | noCommand | idle | refused | openStart | sigStart | openAgain | sigErr | queryDone | readNotAsserted | readAsserted | lenEmpty
  | lenFrame | frameErr | frameSize | frameDone => exact .inl rfl

end Sys2Proof.Machine

namespace Sys2Proof.Machine

/-! ## The outputs of the block (R41, R42, R105, R162) -/

/-- The four sizes a frame read asks for (R91). -/
theorem frameLen_values {k : Kind} {n : Nat} (hk : frameLen k = some n) : n = 7 ∨ n = 14 ∨ n = 17 ∨ n = 27 := by
  cases k <;> cases hk <;> simp

/-- The exchange of a length read. -/
theorem memRead_two_legal : (memRead 2).Legal := ⟨rfl, rfl, .inl rfl⟩

/-- The exchange of a frame read. -/
theorem memRead_frameLen_legal {k : Kind} {n : Nat} (hk : frameLen k = some n) : (memRead n).Legal :=
  ⟨rfl, rfl, .inr (frameLen_values hk)⟩

/-- A length read that fails raises no `InvalidMessageLen` (R131). -/
theorem lengthOf_error_legal {a : BusAnswer} {e : ErrorKind} (h : lengthOf a = .error e) : (Response.err e).Legal := by
  obtain ⟨_, _, rfl⟩ | ⟨_, _, _, rfl⟩ := lengthOf_error h <;> trivial

section LegalOutputs

variable {s : State}

theorem request_output_legal {r : Request} {p : Phase} (h : r.Legal) :
    ∃ o, Output.Legal o ∧ (request r p s).outbox = s.outbox ++ [o] := ⟨.request r, h, rfl⟩

theorem respond_output_legal {r : Response} (h : r.Legal) :
    ∃ o, Output.Legal o ∧ (respond r s).outbox = s.outbox ++ [o] := ⟨.response r, h, rfl⟩

theorem raiseErr_output_legal {e : ErrorKind} (h : (Response.err e).Legal) :
    ∃ o, Output.Legal o ∧ (raiseErr e s).outbox = s.outbox ++ [o] := ⟨.response (.err e), h, rfl⟩

theorem refuse_output_legal : ∃ o, Output.Legal o ∧ (refuse s).outbox = s.outbox ++ [o] :=
  ⟨.response (.refused .wrongState), trivial, rfl⟩

end LegalOutputs

/-- Settles O48: three moves of `step_moved` are silent, and the one output of each other move is legal by that move's own
condition. -/
theorem outputsAreLegal : Obligations.OutputsAreLegal := by
  intro s t hstep
  cases step_moved hstep with
  | reset | noCommand | idle => exact .inl rfl
  | openStart | openAgain | readAsserted => exact .inr (request_output_legal memRead_two_legal)
  | sigStart => exact .inr (request_output_legal trivial)
  | lenFrame _ _ _ hk => exact .inr (request_output_legal (memRead_frameLen_legal hk))
  | openErr _ _ hl | lenErr _ _ hl => exact .inr (raiseErr_output_legal (lengthOf_error_legal hl))
  | openFaults _ _ _ hv => exact .inr (raiseErr_output_legal hv)
  | lenInvalid _ _ _ hv => exact .inr (raiseErr_output_legal hv.left)
  | sigErr | readNotAsserted | lenEmpty | frameErr | frameSize => exact .inr (raiseErr_output_legal trivial)
  | openDone | queryDone => exact .inr (respond_output_legal trivial)
  | frameDone _ _ _ _ hev => exact .inr (respond_output_legal (Option.isSome_of_eq_some hev))
  | refused => exact .inr refuse_output_legal

end Sys2Proof.Machine

namespace Sys2Proof

open Sys2Proof.Machine

/-! ## The classifier (R90, R91) -/

/-- The length map is read the same way in both directions (R62). -/
theorem encode_instrOfKind_classify (v : Word) : encode (instrOfKind (classify v)) = .frame (prefixBytes v) := by
  obtain ⟨rfl, h⟩ | ⟨rfl, h⟩ | ⟨rfl, h⟩ | ⟨rfl, h⟩ | ⟨rfl, h⟩ | ⟨_, h⟩ := classify_cases v <;> rw [h] <;> rfl

/-- No two lengths select the same instruction: the length is in the instruction's encoding. -/
theorem instrOfKind_classify_inj {v w : Word} : instrOfKind (classify v) = instrOfKind (classify w) ↔ v = w := by
  refine ⟨fun h => ?_, congrArg (instrOfKind ∘ classify)⟩
  have he : InstrCode.frame (prefixBytes v) = .frame (prefixBytes w) := by
    rw [← encode_instrOfKind_classify, h, encode_instrOfKind_classify]
  have hp : prefixBytes v = prefixBytes w := InstrCode.frame.inj he
  rw [← le16_prefixBytes v, hp, le16_prefixBytes]

/-- No two lengths are classified alike. -/
theorem classify_inj {v w : Word} : classify v = classify w ↔ v = w :=
  ⟨fun h => instrOfKind_classify_inj.1 (congrArg instrOfKind h), congrArg classify⟩

/-- `INVALID` is the answer on the unrecognised lengths alone, and its operand is the length itself (R90, R96). -/
theorem classify_eq_invalid_iff {v w : Word} : classify v = .invalid w ↔ w = v ∧ (Instr.invalid v).wf = true := by
  constructor
  · intro h
    have hwf : (Instr.invalid w).wf = true := by simpa [h, instrOfKind] using instrOfKind_classify_wf v
    have hvw : v = w := classify_inj.1 (h.trans (classify_of_wf hwf).symm)
    exact ⟨hvw.symm, hvw ▸ hwf⟩
  · rintro ⟨rfl, hwf⟩
    exact classify_of_wf hwf

/-- Settles O1: a recognised length is the only one of its kind by `classify_inj`, and the rest are `INVALID`. -/
theorem classifyIsTheLengthMap : Obligations.ClassifyIsTheLengthMap := by
  intro v
  have hinv : classify v = .invalid v ↔ v ≠ 2 ∧ v ≠ 7 ∧ v ≠ 14 ∧ v ≠ 17 ∧ v ≠ 27 := by
    rw [classify_eq_invalid_iff, wf_invalid_iff, and_iff_right rfl]
  exact ⟨classify_inj (w := 2), classify_inj (w := 7), classify_inj (w := 14), classify_inj (w := 17), classify_inj (w := 27),
    hinv, fun _ h => (classify_eq_invalid_iff.1 h).left⟩

/-- Settles O2: the six values are the table of R91, and `frameLen_classify` reads it back. -/
theorem frameLenOfClassified : Obligations.FrameLenOfClassified :=
  ⟨rfl, rfl, rfl, rfl, rfl, fun _ => rfl, fun _ _ h => (frameLen_classify h).left⟩

/-- A frame's first two bytes decode to the instruction of a length exactly when that length is their value (R61, R62). -/
theorem decode_frame_pair_eq_iff (b0 b1 : Byte) (more : List Byte) (v : Word) :
    decode (.frame (b0 :: b1 :: more)) = .ok (instrOfKind (classify v)) ↔ b0.toNat + 256 * b1.toNat = v.toNat := by
  rw [decode_frame_pair, Except.ok.injEq, instrOfKind_classify_inj, ← BitVec.toNat_inj, toNat_le16]
  rfl

end Sys2Proof

namespace Sys2Proof.Machine

/-! ## The size check of a frame (R98) -/

/-- Settles O15: the size check is `sized` in all four arms, and the arm's event is that of R98. -/
theorem decodeFrameByKind : Obligations.DecodeFrameByKind := by
  refine ⟨fun k n buf hk hn => ?_, fun _ h => sized_ok h, fun _ h => sized_ok h, fun _ h => sized_ok h, fun _ h => sized_ok h⟩
  obtain ⟨h, _⟩ | ⟨_, h⟩ := decodeFrame_cases hk buf
  · exact absurd h hn
  · exact h

/-! ## The kinds without a frame (R93, R96) -/

section LengthsRead

variable {s : State} {v : Word}

theorem exec_empty : exec .empty s = errorKind .empty 2 .noDataAvailable s := rfl

theorem exec_invalid : exec (.invalid v) s = errorKind (.invalid v) v (.invalidMessageLen v) s := rfl

/-- The sentinel ends the handshake with success (R132). -/
theorem handshakeValue_sentinel :
    handshakeValue 2 s = { s with lenLatch := 2, sess := .ready, phase := .idle, busy := false,
                                  outbox := s.outbox ++ [.response .openOk] } := rfl

/-- Another value before the fifth attempt is followed by another length read (R132). -/
theorem handshakeValue_again (hv : v ≠ 2) (hp : s.phase = .openLen) (ha : s.attempt < 5) :
    handshakeValue v s = { s with lenLatch := v, attempt := s.attempt + 1,
                                  outbox := s.outbox ++ [.request (.memRead 0x24 0 2)] } := by
  obtain ⟨h2, _⟩ | ⟨_, _, h⟩ | ⟨_, h5, _⟩ := handshakeValue_cases v s
  · exact absurd h2 hv
  · rw [h, ← hp]; rfl
  · omega

/-- Another value at the fifth attempt, the last, faults the session and is reported (R132). -/
theorem handshakeValue_last (hv : v ≠ 2) (hp : s.phase = .openLen) (ha : 5 ≤ s.attempt) :
    handshakeValue v s = { s with lenLatch := v, sess := .faulted, phase := .idle, busy := false,
                                  outbox := s.outbox ++ [.response (.err (.invalidMessageLen v))] } := by
  obtain ⟨h2, _⟩ | ⟨_, h5, _⟩ | ⟨_, _, h⟩ := handshakeValue_cases v s
  · exact absurd h2 hv
  · omega
  · simp [h, raiseErr, respond, clearBusy, hp]

end LengthsRead

/-- Settles O17: the two phases are `errorKind`'s, and `02 00` is the one pair whose value is 2. -/
theorem emptyMeaning : Obligations.EmptyMeaning := by
  refine ⟨fun s hp => ?_, fun s hp => ?_, fun b0 b1 => (decode_frame_pair_eq_iff b0 b1 [] 2).trans ?_⟩
  · rw [exec_empty, errorKind_readLen hp]; rfl
  · rw [exec_empty, errorKind_openLen hp, handshakeValue_sentinel]
  · bv_omega

/-- Settles O18: an unrecognised value is `classify`'s own operand, and in a handshake it is not the sentinel. -/
theorem invalidMeaning : Obligations.InvalidMeaning := by
  intro v hwf
  have hv : v ≠ 2 := ((wf_invalid_iff v).1 hwf).left
  refine ⟨fun b0 b1 more => ?_, fun s hp => ?_, fun s hp ha => ?_, fun s hp ha => ?_⟩
  · have h := decode_frame_pair_eq_iff b0 b1 more v
    rwa [classify_of_wf hwf] at h
  · rw [exec_invalid, errorKind_readLen hp, raiseErr, sessAfter_invalid_other (by simp [hp])]; rfl
  · rw [exec_invalid, errorKind_openLen hp, handshakeValue_again hv hp ha]
  · rw [exec_invalid, errorKind_openLen hp, handshakeValue_last hv hp ha.ge]

end Sys2Proof.Machine

namespace Sys2Proof

/-! ## Fields as numbers (R10, R67) -/

/-- A field is the quotient and remainder of its byte, so the bits around it have no influence. -/
@[simp] theorem toNat_field (lo w : Nat) (b : Byte) : (field lo w b).toNat = b.toNat / 2 ^ lo % 2 ^ w := by
  simp [field, Nat.shiftRight_eq_div_pow]

/-- A field at the low end of its byte is the remainder alone. -/
theorem toNat_field_zero (w : Nat) (b : Byte) : (field 0 w b).toNat = b.toNat % 2 ^ w := by
  simp

@[simp] theorem toNat_loByte (v : Word) : (loByte v).toNat = v.toNat % 256 := by
  simp [loByte]

@[simp] theorem toNat_hiByte (v : Word) : (hiByte v).toNat = v.toNat / 256 := by
  have hv := v.isLt
  simp only [hiByte, BitVec.toNat_setWidth, BitVec.toNat_ushiftRight, Nat.shiftRight_eq_div_pow]
  omega

end Sys2Proof

namespace Sys2Proof.Machine

/-! ## The touch unpackers (R100, R101) -/

/-- Settles O7: two little-endian words, a byte, and four fields of the two packed bytes. -/
theorem unpackTouchReportFields : Obligations.UnpackTouchReportFields :=
  ⟨fun r _ => ⟨toNat_le16 r 0, rfl, toNat_le16 r 3, toNat_field 5 1 _, toNat_field_zero 5 _, toNat_field 6 2 _, toNat_field_zero 3 _⟩,
    by decide⟩

/-- Settles O8: four fields of the two packed bytes, three little-endian words and two bytes. -/
theorem unpackTouchRecordFields : Obligations.UnpackTouchRecordFields :=
  ⟨fun t _ => ⟨toNat_field_zero 3 _, toNat_field 7 1 _, toNat_field 5 2 _, toNat_field_zero 5 _, toNat_le16 t 2, toNat_le16 t 4, rfl,
    toNat_le16 t 7, rfl⟩, by decide⟩

/-! ## The packers (R107, R108, R123) -/

section PackedBytes

variable {lo w : Nat} {v : BitVec w}

/-- A field that fits above bit `lo` of a byte is placed there without loss. -/
theorem toNat_bitsAt (h : lo + w ≤ 8) : (bitsAt lo v).toNat = 2 ^ lo * v.toNat := by
  have hv : 2 ^ lo * v.toNat < 2 ^ 8 := calc
    2 ^ lo * v.toNat < 2 ^ lo * 2 ^ w := Nat.mul_lt_mul_of_pos_left v.isLt (Nat.two_pow_pos lo)
    _ = 2 ^ (lo + w) := (Nat.pow_add 2 lo w).symm
    _ ≤ 2 ^ 8 := Nat.pow_le_pow_right Nat.two_pos h
  have hw : v.toNat < 2 ^ 8 := v.isLt.trans_le (Nat.pow_le_pow_right Nat.two_pos (by omega))
  rw [bitsAt, BitVec.toNat_shiftLeft, BitVec.toNat_setWidth, Nat.mod_eq_of_lt hw, Nat.shiftLeft_eq, Nat.mul_comm, Nat.mod_eq_of_lt hv]

theorem toNat_bitsAt_zero (h : w ≤ 8) : (bitsAt 0 v).toNat = v.toNat := by
  rw [toNat_bitsAt (by omega), Nat.pow_zero, Nat.one_mul]

/-- A field placed above the bits that are in use joins them by addition. -/
theorem toNat_bitsAt_or {b : Byte} (h : lo + w ≤ 8) (hb : b.toNat < 2 ^ lo) :
    (bitsAt lo v ||| b).toNat = 2 ^ lo * v.toNat + b.toNat := by
  rw [BitVec.toNat_or, toNat_bitsAt h, Nat.two_pow_add_eq_or_of_lt hb]

/-- Two fields in one byte, the second at its low end. -/
theorem toNat_bitsAt_or_low {w' : Nat} {u : BitVec w'} (h : lo + w ≤ 8) (hw : w' ≤ lo) :
    (bitsAt lo v ||| bitsAt 0 u).toNat = 2 ^ lo * v.toNat + u.toNat := by
  have hu : (bitsAt 0 u).toNat = u.toNat := toNat_bitsAt_zero (by omega)
  rw [toNat_bitsAt_or h (hu ▸ u.isLt.trans_le (Nat.pow_le_pow_right Nat.two_pos hw)), hu]

end PackedBytes

/-- Byte 1 of a touch record, its three fields without a gap (R64, R108). -/
theorem toNat_tip_eventId_touchId (tip : BitVec 1) (eventId : BitVec 2) (touchId : BitVec 5) :
    (bitsAt 7 tip ||| bitsAt 5 eventId ||| bitsAt 0 touchId).toNat = 128 * tip.toNat + 32 * eventId.toNat + touchId.toNat := by
  have hlow : (bitsAt 5 eventId ||| bitsAt 0 touchId).toNat = 32 * eventId.toNat + touchId.toNat :=
    toNat_bitsAt_or_low (by decide) (by decide)
  have hbound : (bitsAt 5 eventId ||| bitsAt 0 touchId).toNat < 2 ^ 7 := by omega
  rw [BitVec.or_assoc, toNat_bitsAt_or (by decide) hbound, hlow]
  omega

/-- Settles O10: words split by `loByte` and `hiByte`, and the fields of a packed byte add up, so its padding is zero. -/
theorem packersWriteZeroPadding : Obligations.PackersWriteZeroPadding := by
  refine ⟨fun p => ?_, fun q => ?_, fun p => ?_⟩
  · simp [packTouchReport, toNat_bitsAt_or_low, -BitVec.toNat_or]
  · simp [packTouchRecord, toNat_bitsAt_zero, toNat_tip_eventId_touchId, -BitVec.toNat_or]
  · simp [packButtonRecord]

/-! ## The kinds with a frame (R103 to R106, R121, R122) -/

/-- Settles O16: of the two answers of `decodeFrame_cases`, a buffer of the right size leaves only the event. -/
theorem onlySizeIsChecked : Obligations.OnlySizeIsChecked := by
  intro k n buf hk hn
  obtain ⟨_, hev⟩ | ⟨hne, _⟩ := decodeFrame_cases hk buf
  · exact hev
  · exact absurd hn hne

section FrameKinds

variable {k : Kind} {n : Nat} {s : State}

/-- The length map read from the kind: the size of its frame selects it (R90, R91). -/
theorem classify_ofNat_frameLen (hk : frameLen k = some n) : classify (BitVec.ofNat 16 n) = k := by
  cases k <;> cases hk <;> rfl

/-- The two bytes of the length prefix that select a kind with a frame: the high one is zero (R61, R62). -/
theorem decode_frame_pair_frameLen (hk : frameLen k = some n) (b0 b1 : Byte) (more : List Byte) :
    decode (.frame (b0 :: b1 :: more)) = .ok (instrOfKind k) ↔ b0 = BitVec.ofNat 8 n ∧ b1 = 0 := by
  have hn := frameLen_le hk
  rw [← classify_ofNat_frameLen hk, decode_frame_pair_eq_iff]
  bv_omega

theorem exec_frame (hk : frameLen k = some n) (s : State) : exec (instrOfKind k) s = frameKind k n s := by
  rw [exec_instrOfKind, runKind_frame hk]

/-- The answer to the frame read is treated by `receiveFrame` (R134). -/
theorem exec_frame_answer {a : BusAnswer} {rest : List Input} (hk : frameLen k = some n) (hp : s.phase = .readFrame)
    (hi : s.inbox = .bus a :: rest) : exec (instrOfKind k) s = .next (receiveFrame k a { s with inbox := rest }) := by
  rw [exec_frame hk, frameKind_readFrame hp, onBusAnswer_bus hi]

/-- An answer of another size ends the read (R165). -/
theorem receiveFrame_other {buf : List Byte} (hk : frameLen k = some n) (hn : buf.length ≠ n) :
    receiveFrame k (.ok buf) s = raiseErr .sizeMismatch { s with frameCnt := buf.length } := by
  simp [receiveFrame, hk, hn]

/-- An answer of the right size is stored and the event decoded from it delivered (R54, R134). -/
theorem receiveFrame_sized {buf : List Byte} {ev : Event} (hk : frameLen k = some buf.length) (hd : decodeFrame k buf = .ok ev) :
    receiveFrame k (.ok buf) s = respond (.readOk ev) (storeFrame buf { s with frameCnt := buf.length }) := by
  obtain ⟨_, ha, _⟩ | ⟨_, _, ha, _, hd', _, h⟩ | ⟨_, ha, hn, _⟩ := receiveFrame_cases hk (frameLen_le hk) (.ok buf) s <;> cases ha
  · cases hd.symm.trans hd'
    exact h
  · exact absurd rfl hn

/-- The meaning of every kind with a frame, given how its buffers decode. -/
theorem frameMeaning_of_decodeFrame {event : List Byte → Event} (hk : frameLen k = some n)
    (hd : ∀ buf, buf.length = n → decodeFrame k buf = .ok (event buf)) : FrameMeaning (instrOfKind k) k n event where
  decodes := decode_frame_pair_frameLen hk
  asks s hp := by rw [exec_frame hk, frameKind_readLen hp]; rfl
  busError s e rest hp hi := by rw [exec_frame_answer hk hp hi]; rfl
  sizeMismatch s buf rest hp hi hn := by rw [exec_frame_answer hk hp hi, receiveFrame_other hk hn]; rfl
  delivers s buf rest hp hi hn := by
    subst hn
    have hrun := exec_frame_answer hk hp hi
    rw [receiveFrame_sized hk (hd buf rfl)] at hrun
    exact ⟨_, hrun, rfl, fun j hj => frameByte_storeFrame (frameLen_le hk) hj⟩

end FrameKinds

/-- Settles O19: each touch kind is an instance of `frameMeaning_of_decodeFrame`, its event that of `decodeFrame`'s arm. -/
theorem touchKindsMeaning : Obligations.TouchKindsMeaning :=
  ⟨frameMeaning_of_decodeFrame (k := .touch0) rfl fun _ => sized_ok, frameMeaning_of_decodeFrame (k := .touch1) rfl fun _ => sized_ok,
    frameMeaning_of_decodeFrame (k := .touch2) rfl fun _ => sized_ok⟩

end Sys2Proof.Machine

namespace Sys2Proof

/-! ## A buffer as the list of its bytes (R9) -/

theorem map_byteAt_range (b : List Byte) : (List.range b.length).map (byteAt b) = b := by
  apply List.ext_getElem
  · simp
  · intro i _ hi
    simp [byteAt_eq_getElem hi]

end Sys2Proof

namespace Sys2Proof.Machine

/-! ## The button record (R120, R123, R124) -/

/-- The signal words stand two bytes apart from byte 6 on (R65). -/
theorem btnSignal_unpackButtonRecord (u : List Byte) (j : Fin 4) :
    (unpackButtonRecord u).btnSignal[j] = le16 u (6 + 2 * j) := by
  fin_cases j <;> rfl

/-- Settles O9: two little-endian words, two whole bytes, and the four signal words by their index. -/
theorem unpackButtonRecordFields : Obligations.UnpackButtonRecordFields := by
  refine fun u _ => ⟨toNat_le16 u 0, rfl, toNat_le16 u 3, rfl, fun j => ?_⟩
  rw [btnSignal_unpackButtonRecord, toNat_le16, Nat.add_right_comm]

/-- Each of the fourteen bytes is kept, since every word is split where it was assembled. -/
theorem packButtonRecord_unpackButtonRecord {u : List Byte} (hu : u.length = 14) :
    packButtonRecord (unpackButtonRecord u) = u := by
  calc packButtonRecord (unpackButtonRecord u)
    _ = (List.range 14).map (byteAt u) := by simp [packButtonRecord, unpackButtonRecord, List.range_succ]
    _ = u := by rw [← hu, map_byteAt_range]

/-- The bytes of a signal word in the packed record (R123). -/
theorem byteAt_packButtonRecord_btnSignal (p : ButtonRecord) (j : Fin 4) :
    byteAt (packButtonRecord p) (6 + 2 * j) = loByte p.btnSignal[j] ∧
    byteAt (packButtonRecord p) (6 + 2 * j + 1) = hiByte p.btnSignal[j] := by
  fin_cases j <;> exact ⟨rfl, rfl⟩

theorem unpackButtonRecord_packButtonRecord (p : ButtonRecord) : unpackButtonRecord (packButtonRecord p) = p := by
  have hlength : (unpackButtonRecord (packButtonRecord p)).length = p.length := le16_of_bytes rfl rfl
  have htime : (unpackButtonRecord (packButtonRecord p)).timestamp = p.timestamp := le16_of_bytes rfl rfl
  have hsignal : (unpackButtonRecord (packButtonRecord p)).btnSignal = p.btnSignal := by
    ext1 j hj
    obtain ⟨hlo, hhi⟩ := byteAt_packButtonRecord_btnSignal p ⟨j, hj⟩
    exact (btnSignal_unpackButtonRecord _ ⟨j, hj⟩).trans (le16_of_bytes hlo hhi)
  exact (ButtonRecord.mk.injEq ..).mpr ⟨hlength, rfl, htime, rfl, hsignal⟩

/-- Settles O12: each direction is a law of its own, and no bit is lost in either. -/
theorem buttonRoundTrip : Obligations.ButtonRoundTrip :=
  ⟨fun _ => packButtonRecord_unpackButtonRecord, unpackButtonRecord_packButtonRecord⟩

/-- Settles O20: `frameMeaning_of_decodeFrame` at the button kind, whose event is that of `decodeFrame`'s arm. -/
theorem buttonMeaning : Obligations.ButtonMeaning :=
  frameMeaning_of_decodeFrame (k := .button) rfl fun _ => sized_ok

end Sys2Proof.Machine

namespace Sys2Proof.Machine

/-! ## The acceptance of a command (R130, R137) -/

section Acceptance

variable {s : State}

theorem exec_open_refused (hp : s.phase = .idle) (hb : s.busy = false) (hs : s.sess ≠ .uninitialized) :
    exec .openCmd s = .next { s with outbox := s.outbox ++ [.response (.refused .wrongState)] } := by
  rw [exec_open_idle hp, accept_refuse hb (beq_false_of_ne hs)]; rfl

theorem exec_query_refused (hp : s.phase = .idle) (hb : s.busy = false) (hs : s.sess ≠ .ready) :
    exec .queryCmd s = .next { s with outbox := s.outbox ++ [.response (.refused .wrongState)] } := by
  rw [exec_query_idle hp, accept_refuse hb (beq_false_of_ne hs)]; rfl

theorem exec_read_refused (hp : s.phase = .idle) (hb : s.busy = false) (hs : s.sess ≠ .ready) :
    exec .readCmd s = .next { s with outbox := s.outbox ++ [.response (.refused .wrongState)] } := by
  rw [exec_read_idle hp, accept_refuse hb (beq_false_of_ne hs)]; rfl

theorem exec_open_start (hp : s.phase = .idle) (hb : s.busy = false) (hs : s.sess = .uninitialized) :
    exec .openCmd s = .next (request (memRead 2) .openLen { s with busy := true, attempt := 1 }) := by
  rw [exec_open_idle hp, accept_start hb (beq_iff_eq.2 hs)]; rfl

theorem exec_query_start (hp : s.phase = .idle) (hb : s.busy = false) (hs : s.sess = .ready) :
    exec .queryCmd s = .next (request .signalQuery .querySig { s with busy := true }) := by
  rw [exec_query_idle hp, accept_start hb (beq_iff_eq.2 hs)]; rfl

theorem exec_read_start (hp : s.phase = .idle) (hb : s.busy = false) (hs : s.sess = .ready) :
    exec .readCmd s = .next (request .signalQuery .readSig { s with busy := true }) := by
  rw [exec_read_idle hp, accept_start hb (beq_iff_eq.2 hs)]; rfl

end Acceptance

/-- Settles O24: each command is refused by `accept`, whose refusal only appends the response. -/
theorem wrongStateRefused : Obligations.WrongStateRefused := fun _ hp hb =>
  ⟨exec_open_refused hp hb, fun hs => ⟨exec_query_refused hp hb hs, exec_read_refused hp hb hs⟩⟩

/-! ## The lengths a READ can read (R62, R90, R91) -/

/-- A READ asks for a frame on exactly four lengths, and then for as many bytes as the length says. -/
theorem frameLen_classify_eq_some_iff {v : Word} {n : Nat} :
    frameLen (classify v) = some n ↔ n = v.toNat ∧ (v = 7 ∨ v = 14 ∨ v = 17 ∨ v = 27) := by
  constructor
  · intro h
    obtain ⟨rfl, _⟩ := frameLen_classify h
    have hv := frameLen_values h
    exact ⟨rfl, by bv_omega⟩
  · rintro ⟨rfl, rfl | rfl | rfl | rfl⟩ <;> rfl

/-- While a frame is awaited the invariant fixes its size (R134). -/
theorem frameLen_kindLatch {s : State} (h : s.Inv) (hp : s.phase = .readFrame) :
    frameLen s.kindLatch = some s.lenLatch.toNat := by
  obtain ⟨hk, hsome⟩ := h.latched hp
  rw [hk] at hsome ⊢
  obtain ⟨n, hn⟩ := Option.isSome_iff_exists.1 hsome
  rw [hn, (frameLen_classify hn).left]

/-! ## The step makes the moves of the table (R136) -/

theorem asserted_eq_beq_low (l : Level) : asserted l = (l == .low) := by cases l <;> rfl

section Answers

variable {s : State} {buf : List Byte} {v : Word}

theorem lengthOf_size (h : buf.length ≠ 2) : lengthOf (.ok buf) = .error .sizeMismatch := if_neg h

theorem lengthOf_pair (h : buf.length = 2) : lengthOf (.ok buf) = .ok (le16 buf 0) := if_pos h

theorem openAnswer_error {a : BusAnswer} {e : ErrorKind} (h : lengthOf a = .error e) : openAnswer a s = raiseErr e s := by
  simp only [openAnswer, h]

theorem openAnswer_pair (h : buf.length = 2) : openAnswer (.ok buf) s = handshakeValue (le16 buf 0) s := by
  simp only [openAnswer, lengthOf_pair h]

theorem lengthAnswer_error {a : BusAnswer} {e : ErrorKind} (h : lengthOf a = .error e) :
    lengthAnswer a s = .next (raiseErr e s) := by
  simp only [lengthAnswer, h]

theorem lengthAnswer_pair (h : buf.length = 2) : lengthAnswer (.ok buf) s = exec (instrOfKind (classify (le16 buf 0))) s := by
  simp only [lengthAnswer, lengthOf_pair h, exec_instrOfKind]

/-- A length that selects a frame is latched with its kind, and that many bytes are asked for (R134, R197). -/
theorem exec_frame_asks (hp : s.phase = .readLen) (hv : v = 7 ∨ v = 14 ∨ v = 17 ∨ v = 27) :
    exec (instrOfKind (classify v)) s =
      .next (request (memRead v.toNat) .readFrame { s with lenLatch := v, kindLatch := classify v }) := by
  rw [exec_frame (frameLen_classify_eq_some_iff.2 ⟨rfl, hv⟩), frameKind_readLen hp, BitVec.ofNat_toNat, BitVec.setWidth_eq]; rfl

/-- A request made again in the phase that awaits it, the next attempt of a handshake (R132). -/
theorem request_same_phase {r : Request} {p : Phase} (hp : s.phase = p) :
    request r p s = { s with outbox := s.outbox ++ [.request r] } := by
  subst hp; rfl

/-- In an OPEN `InvalidMessageLen` faults the session (R169). -/
theorem raiseErr_invalid_open (hp : s.phase = .openLen) :
    raiseErr (.invalidMessageLen v) s =
      { s with sess := .faulted, phase := .idle, busy := false,
               outbox := s.outbox ++ [.response (.err (.invalidMessageLen v))] } := by
  rw [raiseErr, hp]; rfl

/-- Elsewhere it leaves the session state. -/
theorem raiseErr_invalid_other (hp : s.phase ≠ .openLen) :
    raiseErr (.invalidMessageLen v) s =
      { s with phase := .idle, busy := false, outbox := s.outbox ++ [.response (.err (.invalidMessageLen v))] } := by
  rw [raiseErr, sessAfter_invalid_other hp]; rfl

end Answers

section Table

variable {s t : State} {e : Input} {rest : List Input}

/-- A row of the table is a step. Only the rows of `READ_FRAME` need the invariant: the awaited size is the latched length. -/
theorem step_of_row (hi : s.inbox = e :: rest) (hk : s.phase = .readFrame → frameLen s.kindLatch = some s.lenLatch.toNat)
    (h : Row { s with inbox := rest } e t) : step s = .next t := by
  cases h with
  | openStart hp hb hs => rw [step_command_idle hi rfl hp hb, exec_open_start hp hb hs]; rfl
  | openRefused hp hb hs => rw [step_command_idle hi rfl hp hb, exec_open_refused hp hb hs]
  | queryStart hp hb hs => rw [step_command_idle hi rfl hp hb, exec_query_start hp hb hs]; rfl
  | queryRefused hp hb hs => rw [step_command_idle hi rfl hp hb, exec_query_refused hp hb hs]
  | readStart hp hb hs => rw [step_command_idle hi rfl hp hb, exec_read_start hp hb hs]; rfl
  | readRefused hp hb hs => rw [step_command_idle hi rfl hp hb, exec_read_refused hp hb hs]
  | openBusErr e hp => rw [step_openLen hi hp]; rfl
  | openSize buf hp hn => rw [step_openLen hi hp, openAnswer_error (lengthOf_size hn)]; rfl
  | openDone buf hp hn hv => rw [step_openLen hi hp, openAnswer_pair hn, hv, handshakeValue_sentinel]
  | openAgain buf hp hn hv ha => rw [step_openLen hi hp, openAnswer_pair hn, handshakeValue_again hv hp ha]
  | openFaults buf hp hn hv ha => rw [step_openLen hi hp, openAnswer_pair hn, handshakeValue_last hv hp ha.ge]
  | queryIoErr e hp => rw [step_querySig hi hp]; rfl
  | queryDone l hp => rw [step_querySig hi hp, ← asserted_eq_beq_low]; rfl
  | readIoErr e hp => rw [step_readSig hi hp]; rfl
  | readNotAsserted hp => rw [step_readSig hi hp]; rfl
  | readAsserted hp => rw [step_readSig hi hp]; rfl
  | lenBusErr e hp => rw [step_readLen hi hp]; rfl
  | lenSize buf hp hn => rw [step_readLen hi hp, lengthAnswer_error (lengthOf_size hn)]; rfl
  | lenEmpty buf hp hn hv =>
    obtain ⟨hempty, _⟩ := emptyMeaning
    rw [step_readLen hi hp, lengthAnswer_pair hn, hv]
    exact hempty _ hp
  | lenInvalid buf hp hn hv =>
    have hwf := (wf_invalid_iff _).2 hv
    obtain ⟨_, hinvalid, _⟩ := invalidMeaning _ hwf
    rw [step_readLen hi hp, lengthAnswer_pair hn, classify_of_wf hwf]
    exact hinvalid _ hp
  | lenFrame buf hp hn hv => rw [step_readLen hi hp, lengthAnswer_pair hn, exec_frame_asks hp hv]; rfl
  | frameBusErr e hp => rw [step_readFrame hi hp (hk hp)]; rfl
  | frameSize buf hp hn => rw [step_readFrame hi hp (hk hp), receiveFrame_other (hk hp) hn]; rfl
  | frameDone buf ev hp hn hd =>
    rw [step_readFrame hi hp (hk hp), receiveFrame_sized ((hk hp).trans (congrArg some hn.symm)) hd]; rfl

/-- A step on an event of the table is a row of it. -/
theorem row_of_moved (hinv : s.Inv) (hi : s.inbox = e :: rest) (he : s.TableEvent e) (h : Moved s t) :
    Row { s with inbox := rest } e t := by
  cases h with
  | reset hi' => cases hi.symm.trans hi'; exact he.elim
  | noCommand hi' => cases hi.symm.trans hi'; exact absurd rfl he
  | idle hp hm =>
    obtain ⟨a, rfl⟩ | ⟨a, rfl⟩ := hm e rest hi <;> exact absurd hp he
  | @refused c _ hi' hc hp hb hs =>
    cases hi.symm.trans hi'
    obtain ⟨rfl, hs⟩ | ⟨hc0, hs⟩ := hs
    · exact .openRefused hp hb hs
    · obtain ⟨rfl, _⟩ | ⟨rfl, _⟩ | ⟨rfl, _⟩ | ⟨rfl, _⟩ := decodeCommand_cases c
      · exact absurd rfl hc0
      · exact .queryRefused hp hb hs
      · exact .readRefused hp hb hs
      · exact absurd rfl hc
  | openStart hi' hp hb hs => cases hi.symm.trans hi'; exact .openStart hp hb hs
  | sigStart hi' hc hp hb hs =>
    cases hi.symm.trans hi'
    obtain ⟨rfl, rfl⟩ | ⟨rfl, rfl⟩ := hc
    · exact .queryStart hp hb hs
    · exact .readStart hp hb hs
  | openErr hi' hp hl =>
    cases hi.symm.trans hi'
    obtain ⟨b, rfl, rfl⟩ | ⟨buf, rfl, hn, rfl⟩ := lengthOf_error hl
    · exact .openBusErr b hp
    · exact .openSize buf hp hn
  | openDone hi' hp hl =>
    cases hi.symm.trans hi'
    obtain ⟨buf, rfl, hn, hv⟩ := lengthOf_ok hl
    exact .openDone buf hp hn hv.symm
  | openAgain hi' hp hl hv ha =>
    cases hi.symm.trans hi'
    obtain ⟨buf, rfl, hn, rfl⟩ := lengthOf_ok hl
    rw [request_same_phase (by simp [hp])]
    exact .openAgain buf hp hn hv ha
  | openFaults hi' hp hl hv ha =>
    cases hi.symm.trans hi'
    obtain ⟨buf, rfl, hn, rfl⟩ := lengthOf_ok hl
    rw [raiseErr_invalid_open (by simp [hp])]
    exact .openFaults buf hp hn hv (hinv.attemptHigh.antisymm ha)
  | sigErr hi' hp =>
    cases hi.symm.trans hi'
    obtain hp | hp := hp
    · exact .queryIoErr _ hp
    · exact .readIoErr _ hp
  | queryDone hi' hp => cases hi.symm.trans hi'; rw [asserted_eq_beq_low]; exact .queryDone _ hp
  | readNotAsserted hi' hp => cases hi.symm.trans hi'; exact .readNotAsserted hp
  | readAsserted hi' hp => cases hi.symm.trans hi'; exact .readAsserted hp
  | lenErr hi' hp hl =>
    cases hi.symm.trans hi'
    obtain ⟨b, rfl, rfl⟩ | ⟨buf, rfl, hn, rfl⟩ := lengthOf_error hl
    · exact .lenBusErr b hp
    · exact .lenSize buf hp hn
  | lenEmpty hi' hp hl =>
    cases hi.symm.trans hi'
    obtain ⟨buf, rfl, hn, hv⟩ := lengthOf_ok hl
    exact .lenEmpty buf hp hn hv.symm
  | lenInvalid hi' hp hl hv =>
    cases hi.symm.trans hi'
    obtain ⟨buf, rfl, hn, rfl⟩ := lengthOf_ok hl
    rw [raiseErr_invalid_other (by simp [hp])]
    exact .lenInvalid buf hp hn hv
  | lenFrame hi' hp hl hk =>
    cases hi.symm.trans hi'
    obtain ⟨buf, rfl, hn, rfl⟩ := lengthOf_ok hl
    obtain ⟨rfl, hv⟩ := frameLen_classify_eq_some_iff.1 hk
    exact .lenFrame buf hp hn hv
  | frameErr hi' hp hk => cases hi.symm.trans hi'; exact .frameBusErr _ hp
  | frameSize hi' hp hk hn =>
    cases hi.symm.trans hi'
    cases hk.symm.trans (frameLen_kindLatch hinv hp)
    exact .frameSize _ hp hn
  | frameDone hi' hp hk hd hev =>
    cases hi.symm.trans hi'
    exact .frameDone _ _ hp (Option.some.inj (hk.symm.trans (frameLen_kindLatch hinv hp))) hd

/-- Outside `IDLE` a request is outstanding (R27, R136). -/
theorem awaited_isSome (hinv : s.Inv) (hp : s.phase ≠ .idle) : s.awaited.isSome = true := by
  unfold State.awaited
  cases h : s.phase with
  | idle => exact absurd h hp
  | readFrame => simp only [frameLen_kindLatch hinv h]; rfl
  | openLen | querySig | readSig | readLen => rfl

/-- Without a move of the outside world only an idle block answers a next state (R174, R196). -/
theorem phase_idle_of_moved_nil (h : Moved s t) (hi : s.inbox = []) : s.phase = .idle := by
  cases h with
  | idle hp => exact hp
  | reset hi' | noCommand hi' | refused hi' | openStart hi' | sigStart hi' | openErr hi' | openDone hi' | openAgain hi' | openFaults hi'
  | sigErr hi' | queryDone hi' | readNotAsserted hi' | readAsserted hi' | lenErr hi' | lenEmpty hi' | lenInvalid hi' | lenFrame hi'
  | frameErr hi' | frameSize hi' | frameDone hi' => cases hi.symm.trans hi'

end Table

/-- Settles O39: a step is one of the moves of `step_moved`, each a row, and `step_of_row` runs each row. -/
theorem stepIsTheTransitionTable : Obligations.StepIsTheTransitionTable :=
  ⟨fun _ _ _ _ hinv hi he =>
    ⟨fun h => row_of_moved hinv hi he (step_moved h), fun h => step_of_row hi (frameLen_kindLatch hinv) h⟩,
   fun _ hinv hp => ⟨awaited_isSome hinv hp, fun hi _ h => hp (phase_idle_of_moved_nil (step_moved h) hi)⟩⟩

end Sys2Proof.Machine

namespace Sys2Proof.Machine

/-! ## The responses of the commands (R135) -/

section Responses

variable {l : List Output} {r r' : Response}

theorem response_eq_of_append (h : l ++ [.response r] = l ++ [.response r']) : r = r' := by
  simpa using h

theorem request_append_ne {q : Request} : l ++ [.request q] ≠ l ++ [.response r] := by simp

theorem ne_append_response : l ≠ l ++ [.response r] := by simp

/-- The errors of a failed length read are among those of OPEN and of READ (R131). -/
theorem lengthOf_error_responses {a : BusAnswer} {e : ErrorKind} (h : lengthOf a = .error e) :
    openResponses (.err e) ∧ readResponses (.err e) := by
  obtain ⟨_, _, rfl⟩ | ⟨_, _, _, rfl⟩ := lengthOf_error h <;> exact ⟨trivial, trivial⟩

end Responses

/-- Settles O52: of the moves of `step_moved`, those that deliver a response deliver one of R135's list for their phase. -/
theorem responsesOfCommands : Obligations.ResponsesOfCommands := by
  intro s t r hstep hout
  cases step_moved hstep with
  | reset | noCommand | idle => exact absurd hout ne_append_response
  | openStart | sigStart | openAgain | readAsserted | lenFrame => exact absurd hout request_append_ne
  | refused hi hc hp => rw [hp, ← response_eq_of_append hout]; rfl
  | openErr hi hp hl => rw [hp, ← response_eq_of_append hout]; exact (lengthOf_error_responses hl).left
  | openFaults hi hp hl hv => rw [hp, ← response_eq_of_append hout]; exact hv
  | sigErr hi hp => obtain hp | hp := hp <;> rw [hp, ← response_eq_of_append hout] <;> trivial
  | lenErr hi hp hl => rw [hp, ← response_eq_of_append hout]; exact (lengthOf_error_responses hl).right
  | lenInvalid hi hp hl hv => rw [hp, ← response_eq_of_append hout]; exact hv
  | openDone hi hp | queryDone hi hp | readNotAsserted hi hp | lenEmpty hi hp | frameErr hi hp | frameSize hi hp | frameDone hi hp =>
    rw [hp, ← response_eq_of_append hout]; trivial

/-! ## A command from start to end

Each step of a command is a row of the table, so a run is read off row by row. -/

section Runs

variable {s t : State} {e : Input} {rest : List Input} {k : Nat}

/-- The first of several steps, by a row of the table. -/
theorem steps_of_row (hi : s.inbox = e :: rest) (hk : s.phase = .readFrame → frameLen s.kindLatch = some s.lenLatch.toNat)
    (h : Row { s with inbox := rest } e t) : steps (k + 1) s = steps k t :=
  steps_succ (step_of_row hi hk h)

/-- The last of several steps, by a row that leads to `u`. -/
theorem steps_last_row {u : State} (hi : s.inbox = e :: rest)
    (hk : s.phase = .readFrame → frameLen s.kindLatch = some s.lenLatch.toNat) (h : Row { s with inbox := rest } e t) (hu : t = u) :
    steps 1 s = .next u :=
  (steps_of_row hi hk h).trans (congrArg _ hu)

/-- A command to an idle block. -/
theorem steps_of_idle_row (hi : s.inbox = e :: rest) (hp : s.phase = .idle) (h : Row { s with inbox := rest } e t) :
    steps (k + 1) s = steps k t :=
  steps_of_row hi (by simp [hp]) h

end Runs

/-- A QUERY in the right session state, on an answer whose row delivers `r`. -/
theorem steps_query_answered {s : State} {g : SigAnswer} {rest : List Input} {r : Response} (hp : s.phase = .idle)
    (hb : s.busy = false) (hs : s.sess = .ready) (hi : s.inbox = .command 1 :: .sig g :: rest)
    (hrow : ∀ u : State, u.phase = .querySig →
      Row u (.sig g) { u with busy := false, phase := .idle, outbox := u.outbox ++ [.response r] }) :
    steps 2 s = .next { s with inbox := rest, outbox := s.outbox ++ [.request .signalQuery, .response r] } := by
  refine (steps_of_idle_row hi hp (.queryStart hp hb hs)).trans ?_
  exact steps_last_row rfl (by simp) (hrow _ rfl) (by simp [hp, hb])

/-- Settles O29: the refusal is one row; otherwise the row that asks is followed by the row of the answer. -/
theorem queryCommand : Obligations.QueryCommand := by
  intro s rest hp hb
  refine ⟨fun hs hi => ?_, fun hs hi => ?_, fun hs hi => ?_, fun e hs hi => ?_⟩
  · exact steps_of_idle_row hi hp (.queryRefused hp hb hs)
  · exact steps_query_answered hp hb hs hi fun _ h => .queryDone .low h
  · exact steps_query_answered hp hb hs hi fun _ h => .queryDone .high h
  · exact steps_query_answered hp hb hs hi fun _ h => .queryIoErr e h

/-! ### OPEN -/

section OpenLoop

variable {n : Nat} {latch : Word} {buf : List Byte} {more : List BusAnswer}

theorem openLoop_size (hn : buf.length ≠ 2) :
    openLoop n latch (.ok buf :: more) = some ⟨.err .sizeMismatch, .uninitialized, n, latch⟩ := if_pos hn

theorem openLoop_done (hn : buf.length = 2) (hv : le16 buf 0 = 2) :
    openLoop n latch (.ok buf :: more) = some ⟨.openOk, .ready, n, 2⟩ :=
  (if_neg (not_not.2 hn)).trans (if_pos hv)

theorem openLoop_last (hn : buf.length = 2) (hv : le16 buf 0 ≠ 2) :
    openLoop 5 latch (.ok buf :: more) = some ⟨.err (.invalidMessageLen (le16 buf 0)), .faulted, 5, le16 buf 0⟩ :=
  (if_neg (not_not.2 hn)).trans ((if_neg hv).trans (if_pos rfl))

theorem openLoop_again (hn : buf.length = 2) (hv : le16 buf 0 ≠ 2) (h5 : n ≠ 5) :
    openLoop n latch (.ok buf :: more) = openLoop (n + 1) (le16 buf 0) more :=
  (if_neg (not_not.2 hn)).trans ((if_neg hv).trans (if_neg h5))

end OpenLoop

/-- The state an OPEN leaves that ends as `e` after `k` more length reads, with `inbox` still to come. -/
def OpenEnd.after (e : OpenEnd) (k : Nat) (inbox : List Input) (s : State) : State :=
  { s with
    sess := e.sess, attempt := e.attempt, lenLatch := e.lenLatch, busy := false, phase := .idle, inbox := inbox,
    outbox := s.outbox ++ (List.replicate k (.request (.memRead 0x24 0 2)) ++ [.response e.response]) }

/-- The steps of a handshake are the loop of R132: one for each length read it still makes, and one for the answer that ends it. -/
theorem steps_openLoop {answers : List BusAnswer} {rest : List Input} {e : OpenEnd} {s : State} (hp : s.phase = .openLen)
    (hs : s.sess = .uninitialized) (ha : s.attempt ≤ 5) (hi : s.inbox = answers.map .bus ++ rest)
    (he : openLoop s.attempt s.lenLatch answers = some e) :
    ∃ k, e.attempt = s.attempt + k ∧ e.attempt ≤ 5 ∧
      steps (k + 1) s = .next (e.after k ((answers.drop (k + 1)).map .bus ++ rest) s) := by
  induction answers generalizing s with
  | nil => cases he
  | cons a more ih =>
    have hk : s.phase = .readFrame → frameLen s.kindLatch = some s.lenLatch.toNat := by simp [hp]
    cases a with
    | busErr b =>
      cases he
      exact ⟨0, rfl, ha, steps_last_row hi hk (.openBusErr b hp) (by simp [OpenEnd.after, hs])⟩
    | ok buf =>
      by_cases hn : buf.length = 2
      · by_cases hv : le16 buf 0 = 2
        · cases (openLoop_done hn hv).symm.trans he
          exact ⟨0, rfl, ha, steps_of_row hi hk (.openDone buf hp hn hv)⟩
        · by_cases h5 : s.attempt = 5
          · rw [h5, openLoop_last hn hv] at he
            cases he
            exact ⟨0, h5.symm, Nat.le_refl 5, steps_last_row hi hk (.openFaults buf hp hn hv h5) (by simp [OpenEnd.after, h5])⟩
          · rw [openLoop_again hn hv h5] at he
            have hlt : s.attempt < 5 := by omega
            obtain ⟨k, hatt, hle, hsteps⟩ :=
              ih (s := { s with inbox := more.map .bus ++ rest, lenLatch := le16 buf 0, attempt := s.attempt + 1,
                                outbox := s.outbox ++ [.request (.memRead 0x24 0 2)] }) hp hs hlt rfl he
            refine ⟨k + 1, by rw [hatt, Nat.add_right_comm, Nat.add_assoc], hle, ?_⟩
            refine (steps_of_row hi hk (.openAgain buf hp hn hv hlt)).trans (hsteps.trans ?_)
            simp [OpenEnd.after, List.replicate_succ]
      · cases (openLoop_size hn).symm.trans he
        exact ⟨0, rfl, ha, steps_last_row hi hk (.openSize buf hp hn) (by simp [OpenEnd.after, hs])⟩

/-- Settles O30: the row that starts the handshake makes the first length read, and `steps_openLoop` the others. -/
theorem openCommand : Obligations.OpenCommand := by
  intro s hp hb
  refine ⟨fun rest hs hi => steps_of_idle_row hi hp (.openRefused hp hb hs), fun answers rest e hs hi he => ?_⟩
  obtain ⟨k, hatt, hle, hsteps⟩ :=
    steps_openLoop (s := { s with inbox := answers.map .bus ++ rest, busy := true, attempt := 1, phase := .openLen,
                                  outbox := s.outbox ++ [.request (.memRead 0x24 0 2)] }) rfl hs (by simp) rfl he
  have hk : e.attempt = k + 1 := hatt.trans (Nat.add_comm 1 k)
  refine ⟨by omega, hle, ?_⟩
  rw [hk, Nat.add_comm 1, steps_of_idle_row hi hp (.openStart hp hb hs), hsteps]
  simp [OpenEnd.after, List.replicate_succ, hk, hp, hb]

end Sys2Proof.Machine

namespace Sys2Proof.Machine

/-! ### READ -/

/-- The state a READ leaves that ends as `e`, with `inbox` still to come. -/
def ReadEnd.after (e : ReadEnd) (inbox : List Input) (s : State) : State :=
  { e.stored.elim s (storeFrame · s) with
    lenLatch := e.lenLatch, kindLatch := e.kindLatch, frameCnt := e.frameCnt, inbox := inbox,
    outbox := s.outbox ++ (e.requests.map .request ++ [.response e.response]) }

/-- A READ accepted in `s` that awaits the signal port, with `inbox` to come. -/
@[simp] def readSigAsked (s : State) (inbox : List Input) : State := request .signalQuery .readSig { s with inbox := inbox, busy := true }

/-- The same READ on its length read. -/
@[simp] def readLenAsked (s : State) (inbox : List Input) : State := request (memRead 2) .readLen (readSigAsked s inbox)

/-- The same READ on its frame read, having read the length `v`. -/
@[simp] def readFrameAsked (s : State) (v : Word) (inbox : List Input) : State :=
  request (memRead v.toNat) .readFrame { readLenAsked s inbox with lenLatch := v, kindLatch := classify v }

/-- A length is 2, or no frame's, or one of the four that select a frame (R62). -/
theorem frameLength_cases (v : Word) :
    v = 2 ∨ (v ≠ 2 ∧ v ≠ 7 ∧ v ≠ 14 ∧ v ≠ 17 ∧ v ≠ 27) ∨ (v = 7 ∨ v = 14 ∨ v = 17 ∨ v = 27) := by
  tauto

section ReadRun

variable {s : State} {v : Word} {more : List BusAnswer}

@[simp] theorem readEndFrame_used (k : Kind) (a : BusAnswer) : (readEndFrame s v k a).used = 2 := by
  cases a with
  | busErr e => rfl
  | ok buf => simp only [readEndFrame]; split <;> rfl

theorem readEndLength_invalid (hv : v ≠ 2 ∧ v ≠ 7 ∧ v ≠ 14 ∧ v ≠ 17 ∧ v ≠ 27) :
    readEndLength s v more =
      some ⟨.err (.invalidMessageLen v), [.signalQuery, memRead 2], 1, v, .invalid v, s.frameCnt, none⟩ := by
  simp only [readEndLength, classify_of_wf ((wf_invalid_iff v).2 hv)]

theorem readEndLength_frame (hv : v = 7 ∨ v = 14 ∨ v = 17 ∨ v = 27) :
    readEndLength s v more = more.head?.map (readEndFrame s v (classify v)) := by
  obtain rfl | rfl | rfl | rfl := hv <;> rfl

theorem readCommand_size {buf : List Byte} (hn : buf.length ≠ 2) :
    readCommand s (.line .low) (.ok buf :: more) =
      some ⟨.err .sizeMismatch, [.signalQuery, memRead 2], 1, s.lenLatch, s.kindLatch, s.frameCnt, none⟩ := if_pos hn

theorem readCommand_pair {buf : List Byte} (hn : buf.length = 2) :
    readCommand s (.line .low) (.ok buf :: more) = readEndLength s (le16 buf 0) more := if_neg (not_not.2 hn)

variable {rest : List Input} {e : ReadEnd}

/-- The answer to the frame read ends a READ as R134's last arm, and what it stores fits `frame_buf`. -/
theorem steps_readFrameAsked (hp : s.phase = .idle) (hb : s.busy = false) (hv : v = 7 ∨ v = 14 ∨ v = 17 ∨ v = 27) (a : BusAnswer) :
    steps 1 (readFrameAsked s v (.bus a :: rest)) = .next ((readEndFrame s v (classify v) a).after rest s) ∧
    ∀ buf, (readEndFrame s v (classify v) a).stored = some buf → buf.length ≤ 27 := by
  have hk : frameLen (classify v) = some v.toNat := frameLen_classify_eq_some_iff.2 ⟨rfl, hv⟩
  cases a with
  | busErr b =>
    exact ⟨steps_last_row rfl (fun _ => hk) (.frameBusErr b rfl) (by simp [ReadEnd.after, readEndFrame, hp, hb]), nofun⟩
  | ok buf =>
    obtain ⟨hn, ev, hd, _⟩ | ⟨hn, hd⟩ := decodeFrame_cases hk buf
    · have he : readEndFrame s v (classify v) (.ok buf) =
          ⟨.readOk ev, [.signalQuery, memRead 2, memRead v.toNat], 2, v, classify v, buf.length, some buf⟩ := by
        simp only [readEndFrame, hd]
      rw [he]
      refine ⟨steps_last_row rfl (fun _ => hk) (.frameDone buf ev rfl hn hd) (by simp [ReadEnd.after, hp, hb]), ?_⟩
      rintro _ ⟨⟩
      exact hn ▸ frameLen_le hk
    · have he : readEndFrame s v (classify v) (.ok buf) =
          ⟨.err .sizeMismatch, [.signalQuery, memRead 2, memRead v.toNat], 2, v, classify v, buf.length, none⟩ := by
        simp only [readEndFrame, hd]
      rw [he]
      exact ⟨steps_last_row rfl (fun _ => hk) (.frameSize buf rfl hn) (by simp [ReadEnd.after, hp, hb]), nofun⟩

/-- A length of two bytes ends a READ, or takes it to its frame read (R134). -/
theorem steps_readLenAsked_pair {buf : List Byte} (hp : s.phase = .idle) (hb : s.busy = false) (hn : buf.length = 2)
    (he : readEndLength s (le16 buf 0) more = some e) :
    steps e.used (readLenAsked s (.bus (.ok buf) :: (more.map .bus ++ rest))) =
      .next (e.after (((.ok buf :: more).drop e.used).map .bus ++ rest) s) ∧
    ∀ b, e.stored = some b → b.length ≤ 27 := by
  obtain hv | hv | hv := frameLength_cases (le16 buf 0)
  · rw [hv] at he
    cases he
    exact ⟨steps_last_row rfl (by simp) (.lenEmpty buf rfl hn hv) (by simp [ReadEnd.after, hp, hb]), nofun⟩
  · cases (readEndLength_invalid hv).symm.trans he
    exact ⟨steps_last_row rfl (by simp) (.lenInvalid buf rfl hn hv) (by simp [ReadEnd.after, hp, hb]), nofun⟩
  · rw [readEndLength_frame hv] at he
    cases more with
    | nil => cases he
    | cons a more =>
      cases he
      obtain ⟨hsteps, hstored⟩ := steps_readFrameAsked (rest := more.map .bus ++ rest) hp hb hv a
      rw [readEndFrame_used]
      exact ⟨(steps_of_row (k := 1) rfl (by simp) (.lenFrame buf rfl hn hv)).trans hsteps, hstored⟩

/-- A READ that has found the line asserted goes on as the pseudocode of R134 on the transport's answers. -/
theorem steps_readLenAsked {answers : List BusAnswer} (hp : s.phase = .idle) (hb : s.busy = false)
    (he : readCommand s (.line .low) answers = some e) :
    steps e.used (readLenAsked s (answers.map .bus ++ rest)) = .next (e.after ((answers.drop e.used).map .bus ++ rest) s) ∧
    ∀ buf, e.stored = some buf → buf.length ≤ 27 := by
  cases answers with
  | nil => cases he
  | cons a more =>
    cases a with
    | busErr b =>
      cases he
      exact ⟨steps_last_row rfl (by simp) (.lenBusErr b rfl) (by simp [ReadEnd.after, hp, hb]), nofun⟩
    | ok buf =>
      by_cases hn : buf.length = 2
      · rw [readCommand_pair hn] at he
        exact steps_readLenAsked_pair hp hb hn he
      · cases (readCommand_size hn).symm.trans he
        exact ⟨steps_last_row rfl (by simp) (.lenSize buf rfl hn) (by simp [ReadEnd.after, hp, hb]), nofun⟩

/-- The steps of a READ are the pseudocode of R134: one for the command, one for the signal port's answer, and one for each answer of the
transport it uses; what it stores fits `frame_buf`. -/
theorem steps_readCommand {g : SigAnswer} {answers : List BusAnswer} (hp : s.phase = .idle) (hb : s.busy = false)
    (hs : s.sess = .ready) (hi : s.inbox = .command 2 :: .sig g :: (answers.map .bus ++ rest))
    (he : readCommand s g answers = some e) :
    steps (2 + e.used) s = .next (e.after ((answers.drop e.used).map .bus ++ rest) s) ∧
    ∀ buf, e.stored = some buf → buf.length ≤ 27 := by
  rw [Nat.add_comm, steps_of_idle_row hi hp (t := readSigAsked s _) (.readStart hp hb hs)]
  cases g with
  | ioErr b =>
    cases he
    exact ⟨steps_last_row rfl (by simp) (.readIoErr b rfl) (by simp [ReadEnd.after, hp, hb]), nofun⟩
  | line l =>
    cases l with
    | high =>
      cases he
      exact ⟨steps_last_row rfl (by simp) (.readNotAsserted rfl) (by simp [ReadEnd.after, hp, hb]), nofun⟩
    | low =>
      obtain ⟨hsteps, hfits⟩ := steps_readLenAsked hp hb he
      exact ⟨(steps_of_row rfl (by simp) (.readAsserted rfl)).trans hsteps, hfits⟩

end ReadRun

/-- A READ that stores a frame leaves its bytes in `frame_buf` (R54). -/
theorem frameByte_after {s : State} {e : ReadEnd} {inbox : List Input} {buf : List Byte} {j : Nat} (he : e.stored = some buf)
    (hn : buf.length ≤ 27) (hj : j < buf.length) : (e.after inbox s).frameByte j = byteAt buf j := by
  rw [← frameByte_storeFrame (s := s) hn hj]
  simp [State.frameByte, ReadEnd.after, he]

end Sys2Proof.Machine

namespace Sys2Proof.Laws

open Sys2Proof.Machine

/-- Settles O31: `steps_readCommand` gives the state, and `ReadEnd.after` writes `frame_buf` only with a stored frame. -/
theorem readCommand : Obligations.ReadCommand := by
  intro s hp hb
  refine ⟨fun rest hs hi => steps_of_idle_row hi hp (.readRefused hp hb hs), fun g answers rest e hs hi he => ?_⟩
  obtain ⟨hsteps, hfits⟩ := steps_readCommand hp hb hs hi he
  refine ⟨_, hsteps, ?_, fun hnone => ?_, fun buf hbuf j hj => frameByte_after hbuf (hfits buf hbuf) hj⟩
  · cases h : e.stored <;> simp [ReadEnd.after, h]
  · simp [ReadEnd.after, hnone]

end Sys2Proof.Laws

namespace Sys2Proof.Machine

/-! ## The state after an error or a refusal (R169) -/

theorem sessAfter_eq_ite (p : Phase) (e : ErrorKind) (old : SessionState) [Decidable (p = .openLen ∧ ∃ v, e = .invalidMessageLen v)] :
    sessAfter p e old = if p = .openLen ∧ ∃ v, e = .invalidMessageLen v then .faulted else old := by
  cases e <;> simp [sessAfter]

section Delivered

variable {s t : State}

/-- An error is delivered by `raiseErr` alone, from a state whose phase and session state are still those before the step (R168). -/
theorem raiseErr_of_moved {e : ErrorKind} (h : Moved s t) (hout : t.outbox = s.outbox ++ [.response (.err e)]) :
    ∃ u : State, t = raiseErr e u ∧ u.phase = s.phase ∧ u.sess = s.sess := by
  cases h with
  | reset | noCommand | idle => exact absurd hout ne_append_response
  | openStart | sigStart | openAgain | readAsserted | lenFrame => exact absurd hout request_append_ne
  | refused | openDone | queryDone | frameDone => cases response_eq_of_append hout
  | openErr | openFaults | sigErr | readNotAsserted | lenErr | lenEmpty | lenInvalid | frameErr | frameSize =>
    cases response_eq_of_append hout; exact ⟨_, rfl, rfl, rfl⟩

/-- `WrongState` comes only from an idle block that refuses a command (R137). -/
theorem refuse_of_moved {w : WrongState} (h : Moved s t) (hout : t.outbox = s.outbox ++ [.response (.refused w)]) :
    s.phase = .idle ∧ s.busy = false ∧ ∃ rest, t = refuse { s with inbox := rest } := by
  cases h with
  | reset | noCommand | idle => exact absurd hout ne_append_response
  | openStart | sigStart | openAgain | readAsserted | lenFrame => exact absurd hout request_append_ne
  | refused _ _ hp hb => exact ⟨hp, hb, _, rfl⟩
  | openErr | openDone | openFaults | sigErr | queryDone | readNotAsserted | lenErr | lenEmpty | lenInvalid | frameErr | frameSize
  | frameDone => cases response_eq_of_append hout

end Delivered

/-- Settles O51: an error is delivered by `raiseErr`, whose session rule is R169's, and a refusal leaves the registers of an idle block. -/
theorem stateAfterError : Obligations.StateAfterError := by
  intro s t _ hstep
  refine ⟨fun e hout => ?_, fun w hout => ?_⟩
  · obtain ⟨u, rfl, hp, hs⟩ := raiseErr_of_moved (step_moved hstep) hout
    refine ⟨rfl, rfl, ?_⟩
    rw [raiseErr_sess, hp, hs]
    exact sessAfter_eq_ite s.phase e s.sess
  · obtain ⟨hp, hb, rest, rfl⟩ := refuse_of_moved (step_moved hstep) hout
    exact ⟨hp, hb, rfl⟩

end Sys2Proof.Machine

namespace Sys2Proof.Machine

/-! ## What reset leaves (R22, R32, R190) -/

/-- Settles O40: of the transitions of `sess`, the only one out of `Ready` or `Faulted` is the reset's. -/
theorem resetStateRegisters : Obligations.ResetStateRegisters := by
  refine ⟨rfl, rfl, rfl, fun s rest hi => ⟨_, step_reset hi, rfl, rfl, rfl⟩, fun s t hinv hs hstep => ?_⟩
  have hleft : s.sess ≠ .uninitialized := fun h => by simp [h] at hs
  obtain hkeep | ⟨_, hreset⟩ | ⟨hopen, _⟩ | ⟨hopen, _⟩ := sessionTransitions s t hinv hstep
  · exact .inl hkeep
  · exact .inr hreset
  · exact absurd hopen hleft
  · exact absurd hopen hleft

/-! ## A request that is never answered (R196) -/

section Silence

variable {s : State}

theorem onBusAnswer_nil (k : BusAnswer → State → Outcome) (hi : s.inbox = []) : onBusAnswer k s = .fault .transportSilent := by
  simp only [onBusAnswer, hi]

theorem onSigAnswer_nil (k : SigAnswer → State → Outcome) (hi : s.inbox = []) : onSigAnswer k s = .fault .signalSilent := by
  simp only [onSigAnswer, hi]

/-- The two phases that wait on the signal port; the others wait on the transport, or on nothing. -/
theorem awaited_eq_signalQuery_iff : s.awaited = some .signalQuery ↔ s.phase = .querySig ∨ s.phase = .readSig := by
  cases hp : s.phase <;> simp [State.awaited, hp, memRead]

theorem step_querySig_nil (hi : s.inbox = []) (hp : s.phase = .querySig) : step s = .fault .signalSilent := by
  rw [step_run ((fetch_rest (by simp [hi])).trans (fetchRest_querySig hp)), exec_query_querySig hp, onSigAnswer_nil _ hi]

theorem step_readSig_nil (hi : s.inbox = []) (hp : s.phase = .readSig) : step s = .fault .signalSilent := by
  rw [step_run ((fetch_rest (by simp [hi])).trans (fetchRest_readSig hp)), exec_read_readSig hp, onSigAnswer_nil _ hi]

theorem step_openLen_nil (hi : s.inbox = []) (hp : s.phase = .openLen) : step s = .fault .transportSilent := by
  rw [step_run ((fetch_rest (by simp [hi])).trans (fetchRest_openLen hp)), exec_open_openLen hp, onBusAnswer_nil _ hi]

theorem step_readLen_nil (hi : s.inbox = []) (hp : s.phase = .readLen) : step s = .fault .transportSilent := by
  rw [step_run ((fetch_rest (by simp [hi])).trans ((fetchRest_readLen hp).trans (fetchPrefix_other (by simp [hi])))),
    exec_read_readLen hp, onBusAnswer_nil _ hi]

theorem step_readFrame_nil {n : Nat} (hi : s.inbox = []) (hp : s.phase = .readFrame) (hk : frameLen s.kindLatch = some n) :
    step s = .fault .transportSilent := by
  rw [step_run ((fetch_rest (by simp [hi])).trans (fetchRest_readFrame hp)), exec_frame hk, frameKind_readFrame hp,
    onBusAnswer_nil _ hi]

/-- A waiting block to which nothing more happens stops at the port it waits on. Only a frame read needs the invariant: the latched kind
has a frame. -/
theorem step_nil_of_waiting (hinv : s.Inv) (hp : s.phase ≠ .idle) (hi : s.inbox = []) :
    step s = .fault (if s.phase = .querySig ∨ s.phase = .readSig then .signalSilent else .transportSilent) := by
  cases h : s.phase with
  | idle => exact absurd h hp
  | openLen => exact step_openLen_nil hi h
  | querySig => exact step_querySig_nil hi h
  | readSig => exact step_readSig_nil hi h
  | readLen => exact step_readLen_nil hi h
  | readFrame => exact step_readFrame_nil hi h (frameLen_kindLatch hinv h)

end Silence

/-- Settles O43: without a move every waiting phase stops by the fault of its port, and the reset move is taken in every phase. -/
theorem unansweredRequestIsStuck : Obligations.UnansweredRequestIsStuck := by
  intro s hinv hp
  refine ⟨fun hi => ?_, fun rest hi => ⟨_, step_reset hi, rfl, rfl⟩⟩
  simp only [awaited_eq_signalQuery_iff]
  exact step_nil_of_waiting hinv hp hi

end Sys2Proof.Machine

namespace Sys2Proof

open Sys2Proof.Machine

/-! ## The decoder and the encoder (R61, R62, R72) -/

/-- Settles O4, one lemma of `Laws.Encoding` for each constructor. -/
theorem decodeOfEncode : Obligations.DecodeOfEncode := by
  intro i
  cases i with
  | empty => exact Laws.Encoding.empty
  | touch0 => exact Laws.Encoding.touch0
  | button => exact Laws.Encoding.button
  | touch1 => exact Laws.Encoding.touch1
  | touch2 => exact Laws.Encoding.touch2
  | invalid len => exact Laws.Encoding.invalid len
  | openCmd => exact Laws.Encoding.openCmd
  | queryCmd => exact Laws.Encoding.queryCmd
  | readCmd => exact Laws.Encoding.readCmd

/-- A frame that decodes has a length prefix, whose kind is the instruction (R60 to R62). -/
theorem decode_frame_ok {bytes : List Byte} {i : Instr} (h : decode (.frame bytes) = .ok i) :
    ∃ b0 b1 more, bytes = b0 :: b1 :: more ∧ i = instrOfKind (classify (le16 [b0, b1] 0)) := by
  match bytes with
  | [] => cases h
  | [_] => cases h
  | b0 :: b1 :: more => cases h; exact ⟨b0, b1, more, rfl, rfl⟩

/-- A word assembled from two bytes is split into them again. -/
theorem prefixBytes_le16 (b0 b1 : Byte) : prefixBytes (le16 [b0, b1] 0) = [b0, b1] := by
  rw [prefixBytes, loByte_le16, hiByte_le16]; rfl

/-- Settles O5: a command code has no other bits, and a prefix is the split of the length that selects the kind. -/
theorem encodeOfDecode : Obligations.EncodeOfDecode := by
  refine ⟨fun code i h => ?_, fun bytes i h => ?_⟩
  · have hd : decodeCommand code = .ok i := h
    obtain ⟨rfl, hc⟩ | ⟨rfl, hc⟩ | ⟨rfl, hc⟩ | ⟨rfl, hc⟩ := decodeCommand_cases code <;> cases hc.symm.trans hd <;>
      exact ⟨rfl, rfl⟩
  · obtain ⟨b0, b1, more, rfl, rfl⟩ := decode_frame_ok h
    exact ⟨instrOfKind_classify_wf _, by rw [encode_instrOfKind_classify, prefixBytes_le16]; rfl⟩

/-- Settles O3: the words are two bytes of a length or a command code, and the decoder computes on each. -/
theorem sampleWordsDecode : Obligations.SampleWordsDecode := by
  unfold Obligations.SampleWordsDecode
  decide

end Sys2Proof

namespace Sys2Proof.Machine

/-! ## Fields at their place in a byte (R10, R67) -/

section PlacedFields

variable {lo w : Nat}

@[simp] theorem field_or (a b : Byte) : field lo w (a ||| b) = field lo w a ||| field lo w b := by
  simp [field, BitVec.ushiftRight_or_distrib]

/-- A field is read back from where it was placed. -/
theorem field_bitsAt_same (h : lo + w ≤ 8) (v : BitVec w) : field lo w (bitsAt lo v) = v := by
  apply BitVec.eq_of_toNat_eq
  rw [toNat_field, toNat_bitsAt h, Nat.mul_div_cancel_left _ (Nat.two_pow_pos lo), Nat.mod_eq_of_lt v.isLt]

/-- A field placed elsewhere in the byte has no bit in it. -/
theorem field_bitsAt_other {lo' w' : Nat} (h : lo' + w' ≤ lo ∨ lo + w ≤ lo') (v : BitVec w') :
    field lo w (bitsAt lo' v) = 0 := by
  ext i hi
  simp only [field, bitsAt, BitVec.getElem_setWidth, BitVec.getLsbD_ushiftRight, BitVec.getLsbD_shiftLeft, BitVec.getLsbD_setWidth]
  obtain h | h := h
  · simp [BitVec.getLsbD_of_ge v (lo + i - lo') (by omega)]
  · simp [show lo + i < lo' by omega]

/-- A field put back at its place is the byte without the bits around it. -/
theorem bitsAt_field (b : Byte) : bitsAt lo (field lo w b) = b &&& bitsAt lo (BitVec.allOnes w) := by
  ext i hi
  by_cases hlo : i < lo
  · simp [bitsAt, hlo]
  · have hin : lo + (i - lo) = i := by omega
    simp [bitsAt, field, hlo, hi, hin, Bool.and_comm, BitVec.getLsbD_eq_getElem]

end PlacedFields

/-! ## The round trip of the parts of a touch frame (R109) -/

section PackedFields

variable (b : Byte)

/-- Byte 5 of a report keeps its low six bits (R63, R69). -/
theorem largeObject_recordNum_repacked : bitsAt 5 (field 5 1 b) ||| bitsAt 0 (field 0 5 b) = b &&& 0x3F := by
  rw [bitsAt_field, bitsAt_field, ← BitVec.and_or_distrib_left]; rfl

/-- Byte 6 of a report loses the three bits between its fields (R63, R69). -/
theorem reportCounter_noiseEffect_repacked : bitsAt 6 (field 6 2 b) ||| bitsAt 0 (field 0 3 b) = b &&& 0xC7 := by
  rw [bitsAt_field, bitsAt_field, ← BitVec.and_or_distrib_left]; rfl

/-- Byte 0 of a record keeps its low three bits (R64, R69). -/
theorem touchType_repacked : bitsAt 0 (field 0 3 b) = b &&& 0x07 := bitsAt_field b

/-- Byte 1 of a record has no padding (R64). -/
theorem tip_eventId_touchId_repacked :
    bitsAt 7 (field 7 1 b) ||| bitsAt 5 (field 5 2 b) ||| bitsAt 0 (field 0 5 b) = b := by
  simp only [bitsAt_field, ← BitVec.and_or_distrib_left]
  exact BitVec.and_allOnes

theorem byte_and_ff : b &&& 255#8 = b := BitVec.and_allOnes

end PackedFields

/-- The bits of the byte at an index of a touch record that are no padding (R69). -/
def recordMask (i : Nat) : Byte := if i = 0 then 0x07 else 0xFF

/-- Byte by byte, what a decoded report is re-encoded to. -/
theorem packTouchReport_unpackTouchReport (r : List Byte) :
    packTouchReport (unpackTouchReport r) = (List.range 7).map fun i => byteAt r i &&& dataMask .touch0 i := by
  simp [packTouchReport, unpackTouchReport, List.range_succ, dataMask, byte_and_ff, largeObject_recordNum_repacked,
    reportCounter_noiseEffect_repacked]

/-- Byte by byte, what a decoded record is re-encoded to. -/
theorem packTouchRecord_unpackTouchRecord (t : List Byte) :
    packTouchRecord (unpackTouchRecord t) = (List.range 10).map fun i => byteAt t i &&& recordMask i := by
  simp [packTouchRecord, unpackTouchRecord, List.range_succ, recordMask, byte_and_ff, touchType_repacked,
    tip_eventId_touchId_repacked]

theorem unpackTouchReport_packTouchReport (p : TouchReport) : unpackTouchReport (packTouchReport p) = p := by
  have hlen : le16 (packTouchReport p) 0 = p.dataLen := le16_of_bytes rfl rfl
  have htime : le16 (packTouchReport p) 3 = p.timestamp := le16_of_bytes rfl rfl
  simp only [unpackTouchReport, hlen, htime]
  simp [packTouchReport, field_bitsAt_same, field_bitsAt_other]

theorem unpackTouchRecord_packTouchRecord (q : TouchRecord) : unpackTouchRecord (packTouchRecord q) = q := by
  have hx : le16 (packTouchRecord q) 2 = q.x := le16_of_bytes rfl rfl
  have hy : le16 (packTouchRecord q) 4 = q.y := le16_of_bytes rfl rfl
  have haxis : le16 (packTouchRecord q) 7 = q.majorAxisLength := le16_of_bytes rfl rfl
  simp only [unpackTouchRecord, hx, hy, haxis]
  simp [packTouchRecord, field_bitsAt_same, field_bitsAt_other]

/-- Settles O11: a byte with padding is masked, every other byte is kept, and no field's bit is lost. -/
theorem touchPartsRoundTrip : Obligations.TouchPartsRoundTrip := by
  refine ⟨fun r hr => ?_, fun t ht => ?_, unpackTouchReport_packTouchReport, unpackTouchRecord_packTouchRecord⟩
  · calc packTouchReport (unpackTouchReport r)
      _ = (((List.range 7).map (byteAt r)).set 5 (byteAt r 5 &&& 0x3F)).set 6 (byteAt r 6 &&& 0xC7) := by
        simp [packTouchReport_unpackTouchReport, List.range_succ, dataMask, byte_and_ff]
      _ = (r.set 5 (byteAt r 5 &&& 0x3F)).set 6 (byteAt r 6 &&& 0xC7) := by rw [← hr, map_byteAt_range]
  · calc packTouchRecord (unpackTouchRecord t)
      _ = ((List.range 10).map (byteAt t)).set 0 (byteAt t 0 &&& 0x07) := by
        simp [packTouchRecord_unpackTouchRecord, List.range_succ, recordMask, byte_and_ff]
      _ = t.set 0 (byteAt t 0 &&& 0x07) := by rw [← ht, map_byteAt_range]

/-! ## The round trip of whole frames (R109, R124) -/

/-- Byte by byte, a frame with its padding cleared. -/
theorem clearPadding_eq_map_range (k : Kind) (buf : List Byte) :
    clearPadding k buf = (List.range buf.length).map fun i => byteAt buf i &&& dataMask k i := by
  apply List.ext_getElem (by simp [clearPadding])
  intro i hi _
  have hib : i < buf.length := by simpa [clearPadding] using hi
  simp [clearPadding, byteAt_eq_getElem hib]

@[simp] theorem length_clearPadding (k : Kind) (buf : List Byte) : (clearPadding k buf).length = buf.length :=
  List.length_mapIdx

/-- The bytes of a slice are those of the buffer from its lower bound on (R9). -/
theorem byteAt_slice {b : List Byte} {i j n : Nat} (h : i + n < j) : byteAt (slice b i j) n = byteAt b (i + n) := by
  simp [byteAt, slice, h]

/-- What the report of a frame is re-encoded to. -/
theorem packTouchReport_slice {k : Kind} {buf : List Byte} (hk : ∀ i < 7, dataMask .touch0 i = dataMask k i) :
    packTouchReport (unpackTouchReport (slice buf 0 7)) = (List.range 7).map fun i => byteAt buf i &&& dataMask k i := by
  rw [packTouchReport_unpackTouchReport]
  refine List.map_congr_left fun i hi => ?_
  have hi7 : i < 7 := List.mem_range.1 hi
  rw [byteAt_slice (by omega), hk i hi7, Nat.zero_add]

/-- What the record of a frame from byte `lo` on is re-encoded to. -/
theorem packTouchRecord_slice {k : Kind} {buf : List Byte} {lo : Nat} (hk : ∀ i < 10, recordMask i = dataMask k (lo + i)) :
    packTouchRecord (unpackTouchRecord (slice buf lo (lo + 10))) =
      ((List.range 10).map (lo + ·)).map fun i => byteAt buf i &&& dataMask k i := by
  rw [packTouchRecord_unpackTouchRecord, List.map_map]
  refine List.map_congr_left fun i hi => ?_
  have hi10 : i < 10 := List.mem_range.1 hi
  rw [byteAt_slice (by omega), hk i hi10, Function.comp]

theorem sized_eq_ok {n : Nat} {f : List Byte → Event} {buf : List Byte} {ev : Event} (h : sized n f buf = .ok ev) :
    buf.length = n ∧ ev = f buf := by
  by_cases hn : buf.length = n
  · exact ⟨hn, Except.ok.inj (h.symm.trans (sized_ok hn))⟩
  · cases (sized_error hn).symm.trans h

/-- Re-encoding the event of a frame gives the frame with its padding cleared, report and records each at their own bytes. -/
theorem packEvent_of_decodeFrame {k : Kind} {buf : List Byte} {ev : Event} (h : decodeFrame k buf = .ok ev) :
    packEvent ev = clearPadding k buf := by
  rw [clearPadding_eq_map_range]
  cases k with
  | touch0 =>
    obtain ⟨hn, rfl⟩ := sized_eq_ok h
    rw [hn, ← packTouchReport_slice (k := .touch0) (by decide)]
    simp [touch0Event, packEvent, packOptional]
  | touch1 =>
    obtain ⟨hn, rfl⟩ := sized_eq_ok h
    rw [hn, List.range_add (n := 7) (m := 10), List.map_append, ← packTouchReport_slice (k := .touch1) (by decide),
      ← packTouchRecord_slice (k := .touch1) (lo := 7) (by decide)]
    simp [touch1Event, packEvent, packOptional]
  | touch2 =>
    obtain ⟨hn, rfl⟩ := sized_eq_ok h
    rw [hn, List.range_add (n := 17) (m := 10), List.range_add (n := 7) (m := 10), List.map_append, List.map_append,
      ← packTouchReport_slice (k := .touch2) (by decide), ← packTouchRecord_slice (k := .touch2) (lo := 7) (by decide),
      ← packTouchRecord_slice (k := .touch2) (lo := 17) (by decide)]
    simp [touch2Event, packEvent, packOptional]
  | button =>
    obtain ⟨hn, rfl⟩ := sized_eq_ok h
    have hslice : slice buf 0 14 = buf := List.take_of_length_le hn.le
    simp [buttonEvent, packEvent, hslice, packButtonRecord_unpackButtonRecord hn, dataMask, byte_and_ff, map_byteAt_range]
  | empty => cases h
  | invalid => cases h

/-- Every event with a kind is decoded from its encoding. -/
theorem decodeFrame_packEvent {k : Kind} {ev : Event} (h : eventKind ev = some k) : decodeFrame k (packEvent ev) = .ok ev := by
  match ev with
  | .touch p none none =>
    cases h
    have hp : slice (packEvent (.touch p none none)) 0 7 = packTouchReport p := rfl
    rw [decodeFrame, sized_ok (by rfl), touch0Event, hp, unpackTouchReport_packTouchReport]
  | .touch p (some q) none =>
    cases h
    have hp : slice (packEvent (.touch p (some q) none)) 0 7 = packTouchReport p := rfl
    have hq : slice (packEvent (.touch p (some q) none)) 7 17 = packTouchRecord q := rfl
    rw [decodeFrame, sized_ok (by rfl), touch1Event, hp, hq, unpackTouchReport_packTouchReport, unpackTouchRecord_packTouchRecord]
  | .touch p (some q) (some q') =>
    cases h
    have hp : slice (packEvent (.touch p (some q) (some q'))) 0 7 = packTouchReport p := rfl
    have hq : slice (packEvent (.touch p (some q) (some q'))) 7 17 = packTouchRecord q := rfl
    have hq' : slice (packEvent (.touch p (some q) (some q'))) 17 27 = packTouchRecord q' := rfl
    rw [decodeFrame, sized_ok (by rfl), touch2Event, hp, hq, hq', unpackTouchReport_packTouchReport,
      unpackTouchRecord_packTouchRecord, unpackTouchRecord_packTouchRecord]
  | .touch _ none (some _) => cases h
  | .button p =>
    cases h
    have hp : slice (packEvent (.button p)) 0 14 = packButtonRecord p := rfl
    rw [decodeFrame, sized_ok (by rfl), buttonEvent, hp, unpackButtonRecord_packButtonRecord]

/-- Settles O13: the two directions of the law of R109 and R124, the length being that of the frame with its padding cleared. -/
theorem frameRoundTrip : Obligations.FrameRoundTrip :=
  ⟨fun _ _ => decodeFrame_packEvent,
   fun _ _ _ h => by rw [packEvent_of_decodeFrame h]; exact ⟨rfl, length_clearPadding _ _⟩⟩

/-- A frame that decodes has its kind's event (R98). -/
theorem eventKind_of_decodeFrame {k : Kind} {buf : List Byte} {ev : Event} (h : decodeFrame k buf = .ok ev) :
    eventKind ev = some k := by
  cases hk : frameLen k with
  | none => cases k <;> cases hk <;> cases h
  | some n =>
    obtain ⟨_, ev', hd, hev⟩ | ⟨_, hd⟩ := decodeFrame_cases hk buf <;> cases hd.symm.trans h
    exact hev

/-- A frame that decodes has the event of its bytes without padding, so no padding bit is read (R69). -/
theorem decodeFrame_clearPadding {k : Kind} {buf : List Byte} {ev : Event} (h : decodeFrame k buf = .ok ev) :
    decodeFrame k (clearPadding k buf) = .ok ev := by
  rw [← packEvent_of_decodeFrame h]
  exact decodeFrame_packEvent (eventKind_of_decodeFrame h)

/-- Settles O14: of each frame the one without padding has the same event, and a frame without padding has only one. -/
theorem paddingIgnored : Obligations.PaddingIgnored := by
  intro k b b' h
  have hlen : b.length = b'.length := by simpa using congrArg List.length h
  obtain ⟨hsize, _⟩ := decodeFrameByKind
  cases hk : frameLen k with
  | none => cases k <;> cases hk <;> rfl
  | some n =>
    obtain ⟨_, ev, hd, _⟩ | ⟨hn, hd⟩ := decodeFrame_cases hk b
    · obtain ⟨_, ev', hd', _⟩ | ⟨hn', _⟩ := decodeFrame_cases hk b'
      · rw [hd, hd', ← decodeFrame_clearPadding hd, h, decodeFrame_clearPadding hd']
      · omega
    · rw [hd, hsize k n b' hk (hlen ▸ hn)]

end Sys2Proof.Machine

namespace Sys2Proof.Machine

/-! ## The invariant of the sequencer (R20, R27, R28, R49, R137) -/

section Invariant

variable {s t : State}

/-- In `IDLE` the invariant asks only for `busy` and the range of `attempt`. -/
theorem inv_of_idle (hp : s.phase = .idle) (hb : s.busy = false) (hlow : 1 ≤ s.attempt) (hhigh : s.attempt ≤ 5) : s.Inv where
  busyIff := by simp [hp, hb]
  home := by rw [hp]; trivial
  attemptLow := hlow
  attemptHigh := hhigh
  latched := by simp [hp]
  outstanding := by simp [hp]

/-- No condition of the invariant reads `inbox`. -/
theorem inbox_inv (h : s.Inv) (rest : List Input) : State.Inv { s with inbox := rest } :=
  ⟨h.busyIff, h.home, h.attemptLow, h.attemptHigh, h.latched, h.outstanding⟩

theorem respond_inv (r : Response) (hlow : 1 ≤ s.attempt) (hhigh : s.attempt ≤ 5) : (respond r s).Inv :=
  inv_of_idle rfl rfl hlow hhigh

theorem raiseErr_inv (e : ErrorKind) (hlow : 1 ≤ s.attempt) (hhigh : s.attempt ≤ 5) : (raiseErr e s).Inv :=
  inv_of_idle rfl rfl hlow hhigh

/-- A request enters a waiting phase of a command in progress, whose awaited request it must be. -/
theorem request_inv {r : Request} {p : Phase} (hb : s.busy = true) (hp : p ≠ .idle) (hhome : p.home s.sess) (hlow : 1 ≤ s.attempt)
    (hhigh : s.attempt ≤ 5) (hk : p = .readFrame → s.kindLatch = classify s.lenLatch ∧ (frameLen s.kindLatch).isSome = true)
    (hr : (request r p s).awaited = some r) : (request r p s).Inv where
  busyIff := by simp [hb, hp]
  home := hhome
  attemptLow := hlow
  attemptHigh := hhigh
  latched := hk
  outstanding _ := by simp [hr]

/-- A refusal leaves an idle block idle. -/
theorem refuse_inv (h : s.Inv) (hp : s.phase = .idle) (hb : s.busy = false) : (refuse s).Inv :=
  inv_of_idle hp hb h.attemptLow h.attemptHigh

/-- The free value of `attempt` keeps the range of R20 (log 6). -/
theorem resetBlock_inv (s : State) : (resetBlock s).Inv :=
  inv_of_idle rfl rfl (Nat.le_add_left 1 _) (Config.freeAttempt s.freeIdx).isLt

/-- In a waiting phase a command is in progress (R28). -/
theorem busy_of_waiting (h : s.Inv) {p : Phase} (hp : s.phase = p) (hne : p ≠ .idle) : s.busy = true := by
  cases hb : s.busy with
  | true => rfl
  | false => exact absurd (hp.symm.trans (h.busyIff.1 hb)) hne

/-- The session state in which the command in progress was available (R137). -/
theorem home_of_phase (h : s.Inv) {p : Phase} (hp : s.phase = p) : p.home s.sess := hp ▸ h.home

/-- Every move keeps the invariant: those that end a command lead to an idle block, the others issue the request they wait for. -/
theorem inv_of_moved (h : s.Inv) (hm : Moved s t) : t.Inv := by
  have hlow := h.attemptLow
  have hhigh := h.attemptHigh
  cases hm with
  | reset => exact resetBlock_inv _
  | noCommand | idle => exact inbox_inv h _
  | refused _ _ hp hb => exact refuse_inv (inbox_inv h _) hp hb
  | openStart _ _ _ hs => exact request_inv rfl nofun hs (Nat.le_refl 1) (Nat.le_add_left 1 4) nofun rfl
  | sigStart _ hc _ _ hs =>
    obtain ⟨_, rfl⟩ | ⟨_, rfl⟩ := hc <;> exact request_inv rfl nofun hs hlow hhigh nofun rfl
  | openAgain _ hp _ _ ha =>
    have hb := busy_of_waiting h hp nofun
    have hs := home_of_phase h hp
    exact request_inv hb nofun hs (Nat.le_add_left 1 _) ha nofun rfl
  | readAsserted _ hp =>
    have hb := busy_of_waiting h hp nofun
    have hs := home_of_phase h hp
    exact request_inv hb nofun hs hlow hhigh nofun rfl
  | lenFrame _ hp _ hk =>
    have hb := busy_of_waiting h hp nofun
    have hs := home_of_phase h hp
    exact request_inv hb nofun hs hlow hhigh (fun _ => ⟨rfl, Option.isSome_of_eq_some hk⟩) (by simp [State.awaited, hk])
  | openDone | queryDone | frameDone => exact respond_inv _ hlow hhigh
  | openErr | openFaults | sigErr | readNotAsserted | lenErr | lenEmpty | lenInvalid | frameErr | frameSize =>
    exact raiseErr_inv _ hlow hhigh

end Invariant

/-- Settles O46: a block that was reset is idle, with `attempt` at 1 (log 1). -/
theorem resetMeetsInvariant : Obligations.ResetMeetsInvariant :=
  inv_of_idle rfl rfl (by decide) (by decide)

/-- Settles O47: a step makes one of the moves of `step_moved`, and each keeps the invariant. -/
theorem stepKeepsInvariant : Obligations.StepKeepsInvariant :=
  fun _ _ hinv hstep => inv_of_moved hinv (step_moved hstep)

/-! ## One response for each command (R130) -/

/-- Settles O53: of the moves of `step_moved`, those that start or refuse a command need an idle block, and each other one but reset and
code 3 makes an output of its own. -/
theorem commandEndsWithOneResponse : Obligations.CommandEndsWithOneResponse := by
  intro s t hinv hbusy hstep
  cases step_moved hstep with
  | reset hi => exact .inr (.inr (.inl ⟨rfl, rfl, _, hi⟩))
  | noCommand hi => exact .inr (.inr (.inr ⟨_, hi, rfl⟩))
  | idle hp => cases hbusy.symm.trans (hinv.busyIff.2 hp)
  | refused _ _ _ hb | openStart _ _ hb | sigStart _ _ _ hb => cases hbusy.symm.trans hb
  | openAgain | readAsserted | lenFrame => exact .inr (.inl ⟨hbusy, _, rfl⟩)
  | openErr | openDone | openFaults | sigErr | queryDone | readNotAsserted | lenErr | lenEmpty | lenInvalid | frameErr | frameSize
  | frameDone => exact .inl ⟨rfl, _, rfl⟩

/-! ## What the block places on the bus (R42, R48) -/

section BusTraffic

variable {s t : State}

/-- A response or a signal query places nothing on the bus. -/
theorem busTraffic_noExchange {o : Output} (h : t.outbox = s.outbox ++ [o]) (hb : o.busBytes = [])
    (ho : ∀ addr w n, o ≠ .request (.memRead addr w n)) :
    (∀ addr w n, t.outbox ≠ s.outbox ++ [.request (.memRead addr w n)]) ∧ t.busTraffic = s.busTraffic :=
  ⟨by simpa [h] using ho, by rw [busTraffic_append h, hb, List.append_nil]⟩

theorem busTraffic_silent (h : t.outbox = s.outbox) :
    (∀ addr w n, t.outbox ≠ s.outbox ++ [.request (.memRead addr w n)]) ∧ t.busTraffic = s.busTraffic :=
  ⟨by simp [h], busTraffic_same h⟩

theorem busTraffic_memRead {n : Nat} (h : t.outbox = s.outbox ++ [.request (memRead n)]) :
    ∃ n, t.outbox = s.outbox ++ [.request (.memRead 0x24 0 n)] ∧ t.busTraffic = s.busTraffic ++ Config.addrFormat 0x24 :=
  ⟨n, h, by rw [busTraffic_append h, busBytes_memRead]⟩

end BusTraffic

/-- Settles O49: each move of `step_moved` makes an exchange, or another output, or none. -/
theorem onlyAddressingOnTheBus : Obligations.OnlyAddressingOnTheBus := by
  intro s t hstep
  cases step_moved hstep with
  | reset | noCommand | idle => exact .inr (busTraffic_silent rfl)
  | openStart | openAgain | readAsserted | lenFrame => exact .inl (busTraffic_memRead rfl)
  | sigStart => exact .inr (busTraffic_noExchange rfl rfl nofun)
  | refused | openErr | openDone | openFaults | sigErr | queryDone | readNotAsserted | lenErr | lenEmpty | lenInvalid | frameErr
  | frameSize | frameDone => exact .inr (busTraffic_noExchange rfl rfl nofun)

/-! ## Answers of the size asked for (R53, R165) -/

/-- A length read of two bytes does not mismatch (R131). -/
theorem lengthOf_error_ne_sizeMismatch {a : BusAnswer} {e : ErrorKind} (h : lengthOf a = .error e)
    (hn : ∀ buf, a = .ok buf → buf.length = 2) : e ≠ .sizeMismatch := by
  obtain ⟨_, _, rfl⟩ | ⟨buf, ha, hne, _⟩ := lengthOf_error h
  · nofun
  · exact absurd (hn buf ha) hne

/-- Settles O54: only a length read and a frame read can mismatch, and each asked for the number of bytes it got. -/
theorem fullAnswersNeverMismatch : Obligations.FullAnswersNeverMismatch := by
  intro s t _ hfull hstep hout
  cases step_moved hstep with
  | reset | noCommand | idle => exact ne_append_response hout
  | openStart | sigStart | openAgain | readAsserted | lenFrame => exact request_append_ne hout
  | openErr hi hp hl | lenErr hi hp hl =>
    refine lengthOf_error_ne_sizeMismatch hl (fun buf ha => ?_) (Response.err.inj (response_eq_of_append hout))
    exact hfull buf _ _ _ 2 (ha ▸ hi) (by simp only [State.awaited, hp]; rfl)
  | frameSize hi hp hk hn => exact hn (hfull _ _ _ _ _ hi (by simp only [State.awaited, hp, hk]; rfl))
  | refused | openDone | openFaults | sigErr | queryDone | readNotAsserted | lenEmpty | lenInvalid | frameErr | frameDone =>
    cases response_eq_of_append hout

end Sys2Proof.Machine

namespace Sys2Proof.Machine

/-! ## The instruction a step runs (R136, R191, R194) -/

section Attribution

variable {s : State}

/-- Where neither a reset nor a command comes first, what comes is an answer. -/
theorem answer_of_not_reset_command (hr : ∀ rest, s.inbox ≠ .reset :: rest) (hc : ∀ code rest, s.inbox ≠ .command code :: rest)
    (m : Input) (rest : List Input) (hi : s.inbox = m :: rest) : (∃ a, m = .bus a) ∨ ∃ a, m = .sig a := by
  cases m with
  | reset => exact absurd hi (hr rest)
  | command code => exact absurd hi (hc code rest)
  | bus a => exact .inl ⟨a, rfl⟩
  | sig a => exact .inr ⟨a, rfl⟩

/-- Two bytes that answer the length read of a READ are decoded to the instruction of their kind. -/
theorem instrOfKind_of_decode_pair {buf : List Byte} {i : Instr} (hn : buf.length = 2) (hd : decode (.frame buf) = .ok i) :
    i = instrOfKind (classify (le16 buf 0)) := by
  obtain ⟨b0, b1, rfl⟩ := length_eq_two hn
  cases hd; rfl

/-- With no reset and no command first, a step runs the instruction in progress. -/
theorem step_of_fetchRest {i : Instr} {t : State} (hm : ∀ m rest, s.inbox = m :: rest → (∃ a, m = .bus a) ∨ ∃ a, m = .sig a)
    (hf : fetchRest s = .run i t) : step s = exec i t :=
  step_run ((fetch_rest hm).trans hf)

end Attribution

/-- Settles O38: a command and a length prefix are decoded by the fetch, and every other answer is left to the instruction in
progress. -/
theorem stepRunsDecodedInstruction : Obligations.StepRunsDecodedInstruction := by
  refine ⟨fun s code rest i hi hd hp hb => step_command_idle hi hd hp hb, fun s buf rest i hi hp hn hd => ?_, fun s hr hc => ?_⟩
  · rw [instrOfKind_of_decode_pair hn hd]
    exact step_of_fetchRest (by simp [hi]) ((fetchRest_readLen hp).trans (fetchPrefix_pair hi hn))
  · have hm := answer_of_not_reset_command hr hc
    exact ⟨fun hp => step_of_fetchRest hm (fetchRest_openLen hp), fun hp => step_of_fetchRest hm (fetchRest_querySig hp),
      fun hp => step_of_fetchRest hm (fetchRest_readSig hp),
      fun hp hn => step_of_fetchRest hm ((fetchRest_readLen hp).trans (fetchPrefix_other hn)),
      fun hp => step_of_fetchRest hm (fetchRest_readFrame hp)⟩

/-- In `IDLE` an answer, or nothing, is all the same to the block (R174, R191). -/
theorem step_idle {s : State} (hp : s.phase = .idle) (hm : ∀ m rest, s.inbox = m :: rest → (∃ a, m = .bus a) ∨ ∃ a, m = .sig a) :
    step s = .next { s with inbox := s.inbox.tail } :=
  step_settle ((fetch_rest hm).trans (fetchRest_idle hp))

/-- Settles O41: the reset ends the command without a response, and `IDLE` drops the answer. -/
theorem resetAbandonsCommand : Obligations.ResetAbandonsCommand := by
  refine ⟨fun s rest hi _ => ⟨_, step_reset hi, ⟨rfl, rfl⟩, rfl, rfl, rfl⟩, fun s rest hp hi => ?_⟩
  obtain ⟨a, hi⟩ | ⟨a, hi⟩ := hi <;> rw [step_idle hp (by simp [hi]), hi] <;> rfl

/-- Settles O42: there is nothing to drop. -/
theorem idleBlockDoesNothing : Obligations.IdleBlockDoesNothing := by
  intro s hp hi
  rw [step_idle hp (by simp [hi]), hi, List.tail_nil, ← hi]

/-- Settles O44: code 3 is no command, so the fetch settles without it. -/
theorem codeThreeHasNoEffect : Obligations.CodeThreeHasNoEffect := fun _ _ hi => step_command_none hi rfl

section Unsolicited

variable {s : State} {rest : List Input}

theorem onBusAnswer_sig {a : SigAnswer} (k : BusAnswer → State → Outcome) (hi : s.inbox = .sig a :: rest) :
    onBusAnswer k s = .refused .answerNotAwaited := by simp only [onBusAnswer, hi]

theorem onSigAnswer_bus {a : BusAnswer} (k : SigAnswer → State → Outcome) (hi : s.inbox = .bus a :: rest) :
    onSigAnswer k s = .refused .answerNotAwaited := by simp only [onSigAnswer, hi]

end Unsolicited

/-- Settles O45: the fetch refuses a second command, and each waiting phase an answer that is not its own. Only a frame read needs the
invariant: the latched kind has a frame. -/
theorem unsolicitedMovesStop : Obligations.UnsolicitedMovesStop := by
  refine ⟨fun s code rest hi hc hp => ?_, fun s a rest hinv hi hp => ?_, fun s a rest hi hp => ?_⟩
  · have hwait : ¬(s.phase = .idle ∧ s.busy = false) := fun ⟨hidle, _⟩ => hp hidle
    obtain ⟨_, hd⟩ | ⟨_, hd⟩ | ⟨_, hd⟩ | ⟨h3, _⟩ := decodeCommand_cases code
    · exact step_command_busy hi hd hwait
    · exact step_command_busy hi hd hwait
    · exact step_command_busy hi hd hwait
    · exact absurd h3 hc
  · have hm : ∀ m rest, s.inbox = m :: rest → (∃ a, m = .bus a) ∨ ∃ a, m = .sig a := by simp [hi]
    obtain hp | hp | hp := hp
    · rw [step_of_fetchRest hm (fetchRest_openLen hp), exec_open_openLen hp, onBusAnswer_sig _ hi]
    · rw [step_of_fetchRest hm ((fetchRest_readLen hp).trans (fetchPrefix_other (by simp [hi]))), exec_read_readLen hp,
        onBusAnswer_sig _ hi]
    · rw [step_of_fetchRest hm (fetchRest_readFrame hp), exec_frame (frameLen_kindLatch hinv hp), frameKind_readFrame hp,
        onBusAnswer_sig _ hi]
  · have hm : ∀ m rest, s.inbox = m :: rest → (∃ a, m = .bus a) ∨ ∃ a, m = .sig a := by simp [hi]
    obtain hp | hp := hp
    · rw [step_of_fetchRest hm (fetchRest_querySig hp), exec_query_querySig hp, onSigAnswer_bus _ hi]
    · rw [step_of_fetchRest hm (fetchRest_readSig hp), exec_read_readSig hp, onSigAnswer_bus _ hi]

/-! ## The codes of a numeric response port (R160) -/

/-- No error has code 0. -/
theorem errorKind_code_pos (e : ErrorKind) : 0 < e.code := by cases e <;> simp [ErrorKind.code]

/-- Settles O57: the codes are read off the table of R160, and of the responses only the successes have code 0. -/
theorem responseCodes : Obligations.ResponseCodes := by
  refine ⟨fun _ => rfl, fun _ => rfl, fun _ => rfl, rfl, rfl, rfl, fun r => ?_⟩
  cases r with
  | openOk | queryOk | readOk => simp [Response.code]
  | err e => simpa [Response.code] using (errorKind_code_pos e).ne'
  | refused w => cases w; simp [Response.code]

/-! ## The commands and the kinds, row by row (R132 to R134, R136) -/

/-- Settles O23: each command is accepted in the session state in which it is available. -/
theorem commandsStart : Obligations.CommandsStart := fun _ hp hb =>
  ⟨exec_open_start hp hb, exec_query_start hp hb, exec_read_start hp hb⟩

section AnswersToCommands

variable {s : State} {rest : List Input}

theorem exec_open_answer {a : BusAnswer} (hp : s.phase = .openLen) (hi : s.inbox = .bus a :: rest) :
    exec .openCmd s = .next (openAnswer a { s with inbox := rest }) := by
  rw [exec_open_openLen hp, onBusAnswer_bus hi]

theorem exec_query_answer {a : SigAnswer} (hp : s.phase = .querySig) (hi : s.inbox = .sig a :: rest) :
    exec .queryCmd s = .next (queryAnswer a { s with inbox := rest }) := by
  rw [exec_query_querySig hp, onSigAnswer_sig hi]

theorem exec_read_signal {a : SigAnswer} (hp : s.phase = .readSig) (hi : s.inbox = .sig a :: rest) :
    exec .readCmd s = .next (signalAnswer a { s with inbox := rest }) := by
  rw [exec_read_readSig hp, onSigAnswer_sig hi]

theorem exec_read_length {a : BusAnswer} (hp : s.phase = .readLen) (hi : s.inbox = .bus a :: rest) :
    exec .readCmd s = lengthAnswer a { s with inbox := rest } := by
  rw [exec_read_readLen hp, onBusAnswer_bus hi]

end AnswersToCommands

/-- Settles O25: each answer is one of the two errors of a length read, or a length that ends or goes on as R132 says. -/
theorem handshakeAnswers : Obligations.HandshakeAnswers := by
  intro s rest hp
  have hu : ({ s with inbox := rest } : State).phase = .openLen := hp
  refine ⟨fun e hi => exec_open_answer hp hi, fun buf hi hn => ?_, fun buf hi hn hv => ?_, fun buf hi hn hv ha => ?_,
    fun buf hi hn hv ha => ?_⟩
  · rw [exec_open_answer hp hi, openAnswer_error (lengthOf_size hn)]; rfl
  · rw [exec_open_answer hp hi, openAnswer_pair hn, hv, handshakeValue_sentinel]
  · rw [exec_open_answer hp hi, openAnswer_pair hn, handshakeValue_again hv hu ha]
  · rw [exec_open_answer hp hi, openAnswer_pair hn, handshakeValue_last hv hu ha.ge]

/-- Settles O26: the two forms of the signal port's answer. -/
theorem queryAnswers : Obligations.QueryAnswers := by
  intro s rest hp
  refine ⟨fun l hi => ?_, fun e hi => exec_query_answer hp hi⟩
  rw [exec_query_answer hp hi, ← asserted_eq_beq_low]; rfl

/-- Settles O27: the three answers of the signal port, and the two errors of a length read. -/
theorem readAnswers : Obligations.ReadAnswers := fun _ _ =>
  ⟨fun hp => ⟨fun _ => exec_read_signal hp, exec_read_signal hp, exec_read_signal hp⟩,
   fun hp => ⟨fun _ => exec_read_length hp, fun _ hi hn => (exec_read_length hp hi).trans (lengthAnswer_error (lengthOf_size hn))⟩⟩

/-- Settles O28: READ treats the length as its kind, and the awaited frame as the latched kind. -/
theorem readGoesOnAsItsKind : Obligations.ReadGoesOnAsItsKind := by
  refine ⟨fun s buf rest i hp hi hn hd => ?_, fun s hp => ?_⟩
  · rw [exec_read_length hp hi, lengthAnswer_pair hn, instrOfKind_of_decode_pair hn hd]
  · rw [exec_read_readFrame hp, exec_instrOfKind]

/-- Settles O21: in a handshake a frame's length is a value other than 2. -/
theorem frameLengthsInHandshake : Obligations.FrameLengthsInHandshake := by
  intro k n hk
  have hv : BitVec.ofNat 16 n ≠ 2 := by
    obtain rfl | rfl | rfl | rfl := frameLen_values hk <;> decide
  refine ⟨fun s hp ha => ?_, fun s hp ha => ?_⟩
  · rw [exec_frame hk, frameKind_openLen hp, handshakeValue_again hv hp ha]
  · rw [exec_frame hk, frameKind_openLen hp, handshakeValue_last hv hp ha.ge]

section KindsOutsideReads

variable {s : State} {k : Kind} {v : Word} {e : ErrorKind}

/-- The meaning of a kind without a frame, whichever it is. -/
theorem exec_noFrame (hk : frameLen k = none) : ∃ v e, ∀ s, exec (instrOfKind k) s = errorKind k v e s := by
  cases k with
  | empty => exact ⟨_, _, fun _ => rfl⟩
  | invalid v => exact ⟨_, _, fun _ => rfl⟩
  | touch0 | touch1 | touch2 | button => cases hk

theorem frameKind_outside {n : Nat} (hp : s.phase = .idle ∨ s.phase = .querySig ∨ s.phase = .readSig) :
    frameKind k n s = .refused .noFrameAwaited := by
  obtain hp | hp | hp := hp <;> simp only [frameKind, hp]

theorem errorKind_outside (hp : s.phase = .idle ∨ s.phase = .querySig ∨ s.phase = .readSig) :
    errorKind k v e s = .refused .noFrameAwaited := by
  obtain hp | hp | hp := hp <;> simp only [errorKind, hp]

theorem errorKind_readFrame (hp : s.phase = .readFrame) : errorKind k v e s = .refused .noFrameAwaited := by
  simp only [errorKind, hp]

end KindsOutsideReads

/-- Settles O22: a kind has no row outside the phases that read a length or a frame, and without a frame none where one is awaited. -/
theorem kindsStopOutsideReads : Obligations.KindsStopOutsideReads := by
  refine ⟨fun k s hp => ?_, fun k s hk hp => ?_⟩
  · cases hk : frameLen k with
    | some n => rw [exec_frame hk, frameKind_outside hp]
    | none =>
      obtain ⟨v, e, hexec⟩ := exec_noFrame hk
      rw [hexec, errorKind_outside hp]
  · obtain ⟨v, e, hexec⟩ := exec_noFrame hk
    rw [hexec, errorKind_readFrame hp]

end Sys2Proof.Machine

namespace Sys2Proof.Machine

/-! ## The frame of each instruction: what it leaves (R132 to R134, R136) -/

/-- What all but the receipt of a frame leave: `frame_cnt`, `frame_buf` and the free-value counter; and one output is made. -/
structure State.FrameKept (s t : State) : Prop where
  frameCnt : t.frameCnt = s.frameCnt
  freeIdx : t.freeIdx = s.freeIdx
  frameBuf : t.frameBuf = s.frameBuf
  output : ∃ o, t.outbox = s.outbox ++ [o]

section Frames

variable {s t : State}

theorem frameByte_of_frameBuf (h : t.frameBuf = s.frameBuf) (a : Nat) : t.frameByte a = s.frameByte a := by
  rw [State.frameByte, h, State.frameByte]

theorem State.FrameKept.frameByte (h : s.FrameKept t) : ∀ a, t.frameByte a = s.frameByte a := frameByte_of_frameBuf h.frameBuf

/-- Outside an OPEN no error changes the session state (R169). -/
theorem sessAfter_of_ne_openLen {p : Phase} (h : p ≠ .openLen) (e : ErrorKind) (old : SessionState) : sessAfter p e old = old := by
  cases e with
  | invalidMessageLen v => exact sessAfter_invalid_other h v old
  | busError | ioError | noDataAvailable | sizeMismatch => rfl

/-! ### The shared operations -/

/-- A command to an idle block is started or refused. -/
theorem accept_next {av : Bool} {start : State → State} (h : accept av start s = .next t) :
    t = start (setBusy s) ∨ t = refuse s := by
  obtain ⟨_, ha⟩ | ⟨_, _, ha⟩ | ⟨_, _, ha⟩ := accept_cases (av := av) (start := start) (s := s) <;> cases ha.symm.trans h
  · exact .inl rfl
  · exact .inr rfl

theorem onBusAnswer_next {k : BusAnswer → State → Outcome} (h : onBusAnswer k s = .next t) :
    ∃ a rest, s.inbox = .bus a :: rest ∧ k a { s with inbox := rest } = .next t := by
  obtain ⟨a, rest, hi, hk⟩ | ⟨_, hk⟩ | ⟨_, _, _, _, hk⟩ := onBusAnswer_cases k s
  · exact ⟨a, rest, hi, hk.symm.trans h⟩
  · cases hk.symm.trans h
  · cases hk.symm.trans h

theorem onSigAnswer_next {k : SigAnswer → State → Outcome} (h : onSigAnswer k s = .next t) :
    ∃ a rest, s.inbox = .sig a :: rest ∧ k a { s with inbox := rest } = .next t := by
  obtain ⟨a, rest, hi, hk⟩ | ⟨_, hk⟩ | ⟨_, _, _, _, hk⟩ := onSigAnswer_cases k s
  · exact ⟨a, rest, hi, hk.symm.trans h⟩
  · cases hk.symm.trans h
  · cases hk.symm.trans h

/-- A handshake writes neither the kind nor the frame, and takes no move. -/
theorem handshakeValue_frame (v : Word) (s : State) :
    s.FrameKept (handshakeValue v s) ∧ (handshakeValue v s).kindLatch = s.kindLatch ∧ (handshakeValue v s).inbox = s.inbox := by
  obtain ⟨_, h⟩ | ⟨_, _, h⟩ | ⟨_, _, h⟩ := handshakeValue_cases v s <;> rw [h] <;> exact ⟨⟨rfl, rfl, rfl, _, rfl⟩, rfl, rfl⟩

theorem openAnswer_frame (a : BusAnswer) (s : State) :
    s.FrameKept (openAnswer a s) ∧ (openAnswer a s).kindLatch = s.kindLatch := by
  cases hl : lengthOf a with
  | error e => rw [openAnswer_error hl]; exact ⟨⟨rfl, rfl, rfl, _, rfl⟩, rfl⟩
  | ok v =>
    obtain ⟨buf, rfl, hn, rfl⟩ := lengthOf_ok hl
    rw [openAnswer_pair hn]
    obtain ⟨hkept, hkind, _⟩ := handshakeValue_frame (le16 buf 0) s
    exact ⟨hkept, hkind⟩

/-! ### What an instruction can answer, by the phase it stands in -/

/-- Everything OPEN can answer. -/
theorem exec_open_next (h : exec .openCmd s = .next t) :
    (s.phase = .idle ∧ (t = request (memRead 2) .openLen { setBusy s with attempt := 1 } ∨ t = refuse s)) ∨
    (s.phase = .openLen ∧ ∃ a rest, t = openAnswer a { s with inbox := rest }) := by
  obtain ⟨p, hp⟩ : ∃ p, s.phase = p := ⟨_, rfl⟩
  cases p with
  | idle => rw [exec_open_idle hp] at h; exact .inl ⟨hp, accept_next h⟩
  | openLen =>
    rw [exec_open_openLen hp] at h
    obtain ⟨a, rest, _, hk⟩ := onBusAnswer_next h
    cases hk; exact .inr ⟨hp, a, rest, rfl⟩
  | querySig | readSig | readLen | readFrame => simp [exec, execOpen, hp] at h

/-- Everything QUERY can answer. -/
theorem exec_query_next (h : exec .queryCmd s = .next t) :
    (s.phase = .idle ∧ (t = request .signalQuery .querySig (setBusy s) ∨ t = refuse s)) ∨
    (s.phase = .querySig ∧ ∃ a rest, t = queryAnswer a { s with inbox := rest }) := by
  obtain ⟨p, hp⟩ : ∃ p, s.phase = p := ⟨_, rfl⟩
  cases p with
  | idle => rw [exec_query_idle hp] at h; exact .inl ⟨hp, accept_next h⟩
  | querySig =>
    rw [exec_query_querySig hp] at h
    obtain ⟨a, rest, _, hk⟩ := onSigAnswer_next h
    cases hk; exact .inr ⟨hp, a, rest, rfl⟩
  | openLen | readSig | readLen | readFrame => simp [exec, execQuery, hp] at h

/-- Everything READ can answer; in its last two phases it goes on as a kind. -/
theorem exec_read_next (h : exec .readCmd s = .next t) :
    (s.phase = .idle ∧ (t = request .signalQuery .readSig (setBusy s) ∨ t = refuse s)) ∨
    (s.phase = .readSig ∧ ∃ a rest, t = signalAnswer a { s with inbox := rest }) ∨
    (s.phase = .readLen ∧ ∃ a rest, lengthAnswer a { s with inbox := rest } = .next t) ∨
    (s.phase = .readFrame ∧ exec (instrOfKind s.kindLatch) s = .next t) := by
  obtain ⟨p, hp⟩ : ∃ p, s.phase = p := ⟨_, rfl⟩
  cases p with
  | idle => rw [exec_read_idle hp] at h; exact .inl ⟨hp, accept_next h⟩
  | readSig =>
    rw [exec_read_readSig hp] at h
    obtain ⟨a, rest, _, hk⟩ := onSigAnswer_next h
    cases hk; exact .inr (.inl ⟨hp, a, rest, rfl⟩)
  | readLen =>
    rw [exec_read_readLen hp] at h
    obtain ⟨a, rest, _, hk⟩ := onBusAnswer_next h
    exact .inr (.inr (.inl ⟨hp, a, rest, hk⟩))
  | readFrame =>
    rw [exec_read_readFrame hp, ← exec_instrOfKind] at h
    exact .inr (.inr (.inr ⟨hp, h⟩))
  | openLen | querySig => simp [exec, execRead, hp] at h

/-- Everything a kind can answer: a handshake's value, its latches with a frame read or an error, or the receipt of its frame. -/
theorem exec_kind_next {k : Kind} (h : exec (instrOfKind k) s = .next t) :
    (s.phase = .openLen ∧ ∃ v, t = handshakeValue v s) ∨
    (s.phase = .readLen ∧ ∃ v, (∃ n, frameLen k = some n ∧ t = request (memRead n) .readFrame (latchKind k (latchLen v s))) ∨
      ∃ e, frameLen k = none ∧ t = raiseErr e (latchKind k (latchLen v s))) ∨
    (s.phase = .readFrame ∧ ∃ n a rest, frameLen k = some n ∧ s.inbox = .bus a :: rest ∧
      t = receiveFrame k a { s with inbox := rest }) := by
  obtain ⟨p, hp⟩ : ∃ p, s.phase = p := ⟨_, rfl⟩
  cases hk : frameLen k with
  | some n =>
    rw [exec_frame hk] at h
    cases p with
    | openLen => rw [frameKind_openLen hp] at h; cases h; exact .inl ⟨hp, _, rfl⟩
    | readLen => rw [frameKind_readLen hp] at h; cases h; exact .inr (.inl ⟨hp, _, .inl ⟨n, rfl, rfl⟩⟩)
    | readFrame =>
      rw [frameKind_readFrame hp] at h
      obtain ⟨a, rest, hi, ha⟩ := onBusAnswer_next h
      cases ha; exact .inr (.inr ⟨hp, n, a, rest, rfl, hi, rfl⟩)
    | idle | querySig | readSig => rw [frameKind_outside (by simp [hp])] at h; cases h
  | none =>
    obtain ⟨v, e, hexec⟩ := exec_noFrame hk
    rw [hexec] at h
    cases p with
    | openLen => rw [errorKind_openLen hp] at h; cases h; exact .inl ⟨hp, _, rfl⟩
    | readLen => rw [errorKind_readLen hp] at h; cases h; exact .inr (.inl ⟨hp, _, .inr ⟨_, rfl, rfl⟩⟩)
    | readFrame => rw [errorKind_readFrame hp] at h; cases h
    | idle | querySig | readSig => rw [errorKind_outside (by simp [hp])] at h; cases h

/-- What a kind leaves after the length read of a READ, with a frame or without. -/
theorem exec_kind_readLen_frame {k : Kind} (hp : s.phase = .readLen) (h : exec (instrOfKind k) s = .next t) :
    s.FrameKept t ∧ t.sess = s.sess ∧ t.attempt = s.attempt ∧ t.inbox = s.inbox := by
  obtain ⟨hp', _⟩ | ⟨_, v, ⟨n, _, rfl⟩ | ⟨e, _, rfl⟩⟩ | ⟨hp', _⟩ := exec_kind_next h
  · cases hp.symm.trans hp'
  · exact ⟨⟨rfl, rfl, rfl, _, rfl⟩, rfl, rfl, rfl⟩
  · exact ⟨⟨rfl, rfl, rfl, _, rfl⟩, sessAfter_of_ne_openLen (by simp [hp]) e s.sess, rfl, rfl⟩
  · cases hp.symm.trans hp'

/-- What the receipt of a frame leaves; only an answer of the kind's size is stored (R54). -/
theorem receiveFrame_frame {k : Kind} {n : Nat} (hk : frameLen k = some n) (a : BusAnswer) (s : State) :
    (receiveFrame k a s).sess = s.sess ∧ (receiveFrame k a s).attempt = s.attempt ∧ (receiveFrame k a s).lenLatch = s.lenLatch ∧
    (receiveFrame k a s).kindLatch = s.kindLatch ∧
    ((∀ buf, a = .ok buf → buf.length ≠ n) →
      (receiveFrame k a s).freeIdx = s.freeIdx ∧ (receiveFrame k a s).frameBuf = s.frameBuf) ∧
    ∃ o, (receiveFrame k a s).outbox = s.outbox ++ [o] := by
  obtain ⟨_, _, h⟩ | ⟨buf, _, ha, hn, _, _, h⟩ | ⟨_, _, _, _, h⟩ := receiveFrame_cases hk (frameLen_le hk) a s <;> rw [h]
  · exact ⟨rfl, rfl, rfl, rfl, fun _ => ⟨rfl, rfl⟩, _, rfl⟩
  · exact ⟨rfl, rfl, rfl, rfl, fun hne => absurd hn (hne buf ha), _, rfl⟩
  · exact ⟨rfl, rfl, rfl, rfl, fun _ => ⟨rfl, rfl⟩, _, rfl⟩

theorem signalAnswer_frame (a : SigAnswer) (s : State) :
    s.FrameKept (signalAnswer a s) ∧ (signalAnswer a s).sess = s.sess ∧ (signalAnswer a s).attempt = s.attempt ∧
    (signalAnswer a s).lenLatch = s.lenLatch ∧ (signalAnswer a s).kindLatch = s.kindLatch := by
  match a with
  | .line .low | .line .high | .ioErr _ => exact ⟨⟨rfl, rfl, rfl, _, rfl⟩, rfl, rfl, rfl, rfl⟩

/-- What the answer to the length read of a READ leaves: it raises an error or goes on as a kind. -/
theorem lengthAnswer_frame {a : BusAnswer} (hp : s.phase = .readLen) (h : lengthAnswer a s = .next t) :
    s.FrameKept t ∧ t.sess = s.sess ∧ t.attempt = s.attempt := by
  cases hl : lengthOf a with
  | error e =>
    cases (lengthAnswer_error hl).symm.trans h
    exact ⟨⟨rfl, rfl, rfl, _, rfl⟩, sessAfter_lengthOf_error hl s.phase s.sess, rfl⟩
  | ok v =>
    obtain ⟨buf, rfl, hn, rfl⟩ := lengthOf_ok hl
    rw [lengthAnswer_pair hn] at h
    obtain ⟨hkept, hsess, hatt, _⟩ := exec_kind_readLen_frame hp h
    exact ⟨hkept, hsess, hatt⟩

end Frames

/-- Settles O33: an idle block starts or refuses the command, and `openAnswer_frame` says what a handshake leaves. -/
theorem openFrame : Obligations.OpenFrame := by
  intro s t h
  obtain ⟨_, rfl | rfl⟩ | ⟨hp, a, rest, rfl⟩ := exec_open_next h
  · exact ⟨rfl, rfl, rfl, fun _ => rfl, fun _ => ⟨rfl, rfl, rfl⟩, _, rfl⟩
  · exact ⟨rfl, rfl, rfl, fun _ => rfl, fun _ => ⟨rfl, rfl, rfl⟩, _, rfl⟩
  · obtain ⟨hkept, hkind⟩ := openAnswer_frame a { s with inbox := rest }
    exact ⟨hkind, hkept.frameCnt, hkept.freeIdx, hkept.frameByte, by simp [hp], hkept.output⟩

/-- Settles O34: an idle block starts or refuses the command, and neither answer of the signal port writes another register. -/
theorem queryFrame : Obligations.QueryFrame := by
  intro s t h
  obtain ⟨_, rfl | rfl⟩ | ⟨hp, a, rest, rfl⟩ := exec_query_next h
  · exact ⟨rfl, rfl, rfl, rfl, rfl, rfl, fun _ => rfl, fun _ => rfl, _, rfl⟩
  · exact ⟨rfl, rfl, rfl, rfl, rfl, rfl, fun _ => rfl, fun _ => rfl, _, rfl⟩
  · cases a with
    | line | ioErr => exact ⟨rfl, rfl, rfl, rfl, rfl, rfl, fun _ => rfl, by simp [hp], _, rfl⟩

/-- Settles O35: the latches are written where READ goes on as a kind, the frame where it receives it. -/
theorem readFrame : Obligations.ReadFrame := by
  intro s t h
  obtain ⟨_, rfl | rfl⟩ | ⟨hp, a, rest, rfl⟩ | ⟨hp, a, rest, hl⟩ | ⟨hp, hrun⟩ := exec_read_next h
  · exact ⟨rfl, rfl, fun _ => ⟨rfl, rfl⟩, fun _ => rfl, fun _ => rfl, fun _ => ⟨rfl, fun _ => rfl⟩, _, rfl⟩
  · exact ⟨rfl, rfl, fun _ => ⟨rfl, rfl⟩, fun _ => rfl, fun _ => rfl, fun _ => ⟨rfl, fun _ => rfl⟩, _, rfl⟩
  · obtain ⟨hkept, hsess, hatt, hlen, hkind⟩ := signalAnswer_frame a { s with inbox := rest }
    exact ⟨hsess, hatt, fun _ => ⟨hlen, hkind⟩, fun _ => hkept.frameCnt, by simp [hp], fun _ => ⟨hkept.freeIdx, hkept.frameByte⟩,
      hkept.output⟩
  · obtain ⟨hkept, hsess, hatt⟩ := lengthAnswer_frame (s := { s with inbox := rest }) hp hl
    exact ⟨hsess, hatt, fun hne => absurd hp hne, fun _ => hkept.frameCnt, by simp [hp], fun _ => ⟨hkept.freeIdx, hkept.frameByte⟩,
      hkept.output⟩
  · obtain ⟨hp', _⟩ | ⟨hp', _⟩ | ⟨_, n, a, rest, hk, hi, rfl⟩ := exec_kind_next hrun
    · cases hp.symm.trans hp'
    · cases hp.symm.trans hp'
    · obtain ⟨hsess, hatt, hlen, hkind, hstore, hout⟩ := receiveFrame_frame hk a { s with inbox := rest }
      refine ⟨hsess, hatt, fun _ => ⟨hlen, hkind⟩, fun hne => absurd hp hne, by simp [hp], fun hother => ?_, hout⟩
      obtain ⟨hidx, hbuf⟩ := hstore fun buf ha hn => hother hp buf rest (ha ▸ hi) (hn ▸ hk)
      exact ⟨hidx, frameByte_of_frameBuf hbuf⟩

/-- Settles O36: the two kinds without a frame read no answer, so of `exec_kind_next` the handshake and the error are left. -/
theorem emptyInvalidFrame : Obligations.EmptyInvalidFrame := by
  intro i s t hi h
  obtain ⟨k, rfl, hk⟩ : ∃ k, i = instrOfKind k ∧ frameLen k = none := by
    obtain rfl | ⟨v, rfl⟩ := hi
    · exact ⟨.empty, rfl, rfl⟩
    · exact ⟨.invalid v, rfl, rfl⟩
  obtain ⟨hp, v, rfl⟩ | ⟨hp, _⟩ | ⟨_, _, _, _, hk', _⟩ := exec_kind_next h
  · obtain ⟨hkept, hkind, hin⟩ := handshakeValue_frame v s
    exact ⟨hkept.frameCnt, hkept.freeIdx, hin, hkept.frameByte, by simp [hp], fun _ => hkind, hkept.output⟩
  · obtain ⟨hkept, hsess, hatt, hin⟩ := exec_kind_readLen_frame hp h
    exact ⟨hkept.frameCnt, hkept.freeIdx, hin, hkept.frameByte, fun _ => ⟨hsess, hatt⟩, by simp [hp], hkept.output⟩
  · cases hk.symm.trans hk'

/-- Settles O37: the three meanings of a kind with a frame, each in its phase. -/
theorem frameKindsFrame : Obligations.FrameKindsFrame := by
  intro k n s t hk h
  obtain ⟨hp, v, rfl⟩ | ⟨hp, v, ⟨m, _, rfl⟩ | ⟨e, hk', _⟩⟩ | ⟨hp, m, a, rest, hk', hi, rfl⟩ := exec_kind_next h
  · obtain ⟨hkept, hkind, hin⟩ := handshakeValue_frame v s
    exact ⟨by simp [hp], by simp [hp], fun _ => ⟨hkind, hin⟩, fun _ => hkept.frameCnt, fun _ => ⟨hkept.freeIdx, hkept.frameByte⟩,
      hkept.output⟩
  · exact ⟨fun _ => ⟨rfl, rfl, rfl, rfl⟩, by simp [hp], by simp [hp], fun _ => rfl, fun _ => ⟨rfl, fun _ => rfl⟩, _, rfl⟩
  · cases hk.symm.trans hk'
  · cases hk.symm.trans hk'
    obtain ⟨hsess, hatt, hlen, hkind, hstore, hout⟩ := receiveFrame_frame hk a { s with inbox := rest }
    refine ⟨by simp [hp], fun _ => ⟨hsess, hatt, hlen, hkind⟩, by simp [hp], fun hne => absurd hp hne, fun hother => ?_, hout⟩
    obtain ⟨hidx, hbuf⟩ := hstore fun buf ha => hother hp buf rest (ha ▸ hi)
    exact ⟨hidx, frameByte_of_frameBuf hbuf⟩

end Sys2Proof.Machine

namespace Sys2Proof.Machine

/-! ## Commands that are answered in full (R200) -/

/-- A handshake that gets an answer to every length read it can still make ends (R132). -/
theorem exists_openLoop {n : Nat} {latch : Word} {answers : List BusAnswer} (hn : n ≤ 5) (hlen : 5 < n + answers.length) :
    ∃ e, openLoop n latch answers = some e := by
  induction answers generalizing n latch with
  | nil => exact absurd hlen (by simpa using hn)
  | cons a more ih =>
    cases a with
    | busErr e => exact ⟨_, rfl⟩
    | ok buf =>
      by_cases hsize : buf.length = 2
      · by_cases hv : le16 buf 0 = 2
        · exact ⟨_, openLoop_done hsize hv⟩
        · by_cases h5 : n = 5
          · subst h5; exact ⟨_, openLoop_last hsize hv⟩
          · rw [openLoop_again hsize hv h5]
            exact ih (by omega) (by rw [List.length_cons] at hlen; omega)
      · exact ⟨_, openLoop_size hsize⟩

/-- A READ that has its length needs at most one more answer (R134). -/
theorem exists_readEndLength (s : State) (v : Word) (a : BusAnswer) : ∃ e, readEndLength s v [a] = some e ∧ e.used ≤ 2 := by
  obtain rfl | hv | hv := frameLength_cases v
  · exact ⟨_, rfl, Nat.le_succ 1⟩
  · exact ⟨_, readEndLength_invalid hv, Nat.le_succ 1⟩
  · exact ⟨_, readEndLength_frame hv, (readEndFrame_used _ a).le⟩

/-- A READ that gets the signal port's answer and two of the transport ends (R134). -/
theorem exists_readCommand (s : State) (g : SigAnswer) (a b : BusAnswer) :
    ∃ e, readCommand s g [a, b] = some e ∧ e.used ≤ 2 := by
  match g, a with
  | .ioErr e, a => exact ⟨_, rfl, Nat.zero_le 2⟩
  | .line .high, a => exact ⟨_, rfl, Nat.zero_le 2⟩
  | .line .low, .busErr e => exact ⟨_, rfl, Nat.le_succ 1⟩
  | .line .low, .ok buf =>
    by_cases hn : buf.length = 2
    · rw [readCommand_pair hn]; exact exists_readEndLength s _ b
    · exact ⟨_, readCommand_size hn, Nat.le_succ 1⟩

/-- A QUERY ends on either answer of the signal port. -/
theorem exists_queryCommand {s : State} {g : SigAnswer} {rest : List Input} (hp : s.phase = .idle) (hb : s.busy = false)
    (hs : s.sess = .ready) (hi : s.inbox = .command 1 :: .sig g :: rest) :
    ∃ r, steps 2 s = .next { s with inbox := rest, outbox := s.outbox ++ [.request .signalQuery, .response r] } := by
  cases g with
  | line l => exact ⟨_, steps_query_answered hp hb hs hi fun _ h => .queryDone l h⟩
  | ioErr e => exact ⟨_, steps_query_answered hp hb hs hi fun _ h => .queryIoErr e h⟩

/-- Settles O32: with that many answers the pseudocode of each command ends, and its steps are the pseudocode. -/
theorem answeredCommandsEnd : Obligations.AnsweredCommandsEnd := by
  rintro s answers g rest ⟨hp, hb⟩
  refine ⟨fun hs hlen hi => ?_, fun hs hi => ?_, fun hs hlen hi => ?_⟩
  · obtain ⟨e, he⟩ := exists_openLoop (latch := s.lenLatch) (answers := answers) (Nat.le_add_left 1 4) (by omega)
    obtain ⟨_, hopen⟩ := openCommand s hp hb
    obtain ⟨_, h5, hsteps⟩ := hopen answers rest e hs hi he
    exact ⟨_, _, by omega, hsteps, ⟨hp, hb⟩, _, _, rfl⟩
  · obtain ⟨r, hsteps⟩ := exists_queryCommand hp hb hs hi
    exact ⟨2, _, Nat.le_refl 2, hsteps, ⟨hp, hb⟩, [.request .signalQuery], r, by simp⟩
  · obtain ⟨a, b, rfl⟩ := List.length_eq_two.1 hlen
    obtain ⟨e, he, hused⟩ := exists_readCommand s g a b
    obtain ⟨_, hread⟩ := Laws.readCommand s hp hb
    obtain ⟨t, hsteps, ht, _⟩ := hread g [a, b] rest e hs hi he
    exact ⟨_, t, by omega, hsteps, by rw [ht]; exact ⟨hp, hb⟩, _, _, congrArg State.outbox ht⟩

end Sys2Proof.Machine

namespace Sys2Proof.Machine

/-! ## The error codes are passed through (R161, R163)

A renaming of the codes commutes with every operation, hence with every instruction, with the fetch and with the step. -/

/-- The renaming of an answer of the transport, as `Relabel.input` has it. -/
def Relabel.busAnswer (m : Relabel) : BusAnswer → BusAnswer
  | .ok buf => .ok buf
  | .busErr e => .busErr (m.bus e)

/-- The renaming of an answer of the signal port, as `Relabel.input` has it. -/
def Relabel.sigAnswer (m : Relabel) : SigAnswer → SigAnswer
  | .line l => .line l
  | .ioErr e => .ioErr (m.io e)

/-- The renaming of what a fetch gives. -/
def Relabel.fetched (m : Relabel) : Fetched → Fetched
  | .run i s => .run i (m.state s)
  | .settle s => .settle (m.state s)
  | .refuse r => .refuse r

section ErrorTokens

variable {m : Relabel} {s : State}

@[simp] theorem Relabel.input_bus (a : BusAnswer) : m.input (.bus a) = .bus (m.busAnswer a) := by cases a <;> rfl

@[simp] theorem Relabel.input_sig (a : SigAnswer) : m.input (.sig a) = .sig (m.sigAnswer a) := by cases a <;> rfl

/-! Only the interfaces hold codes. -/

theorem Relabel.state_busy : (m.state s).busy = s.busy := rfl
theorem Relabel.state_phase : (m.state s).phase = s.phase := rfl
theorem Relabel.state_sess : (m.state s).sess = s.sess := rfl
theorem Relabel.state_kindLatch : (m.state s).kindLatch = s.kindLatch := rfl
theorem Relabel.state_inbox : (m.state s).inbox = s.inbox.map m.input := rfl

/-! ### The shared operations -/

theorem request_relabel (r : Request) (p : Phase) (s : State) : request r p (m.state s) = m.state (request r p s) := by
  simp [request, Relabel.state, Relabel.output]

/-- A response without error information is the same under the renaming. -/
theorem respond_relabel {r : Response} (hr : m.output (.response r) = .response r) (s : State) :
    respond r (m.state s) = m.state (respond r s) := by
  simp [respond, clearBusy, Relabel.state, hr]

/-- The session-state rule looks at the kind of an error, not at its code (R169). -/
theorem sessAfter_relabel (p : Phase) (e : ErrorKind) (old : SessionState) : sessAfter p (m.error e) old = sessAfter p e old := by
  cases e <;> rfl

theorem raiseErr_relabel (e : ErrorKind) (s : State) : raiseErr (m.error e) (m.state s) = m.state (raiseErr e s) := by
  simp [raiseErr, respond, clearBusy, Relabel.state, sessAfter_relabel, Relabel.output]

theorem refuse_relabel (s : State) : refuse (m.state s) = m.state (refuse s) := by
  simp [refuse, Relabel.state, Relabel.output]

theorem accept_relabel (av : Bool) {start : State → State} (hs : ∀ s, start (m.state s) = m.state (start s)) (s : State) :
    accept av start (m.state s) = m.outcome (accept av start s) := by
  unfold accept
  rw [Relabel.state_busy]
  cases s.busy <;> cases av
  · exact congrArg Host.Outcome.next (refuse_relabel s)
  · exact congrArg Host.Outcome.next (hs (setBusy s))
  · rfl
  · rfl

theorem onBusAnswer_relabel {k : BusAnswer → State → Outcome}
    (hk : ∀ a t, k (m.busAnswer a) (m.state t) = m.outcome (k a t)) :
    onBusAnswer k (m.state s) = m.outcome (onBusAnswer k s) := by
  unfold onBusAnswer
  rw [Relabel.state_inbox]
  cases s.inbox with
  | nil => rfl
  | cons i rest =>
    cases i with
    | bus a => rw [List.map_cons, Relabel.input_bus]; exact hk a { s with inbox := rest }
    | sig a => rw [List.map_cons, Relabel.input_sig]; rfl
    | command | reset => rfl

theorem onSigAnswer_relabel {k : SigAnswer → State → Outcome}
    (hk : ∀ a t, k (m.sigAnswer a) (m.state t) = m.outcome (k a t)) :
    onSigAnswer k (m.state s) = m.outcome (onSigAnswer k s) := by
  unfold onSigAnswer
  rw [Relabel.state_inbox]
  cases s.inbox with
  | nil => rfl
  | cons i rest =>
    cases i with
    | sig a => rw [List.map_cons, Relabel.input_sig]; exact hk a { s with inbox := rest }
    | bus a => rw [List.map_cons, Relabel.input_bus]; rfl
    | command | reset => rfl

theorem lengthOf_relabel_error {a : BusAnswer} {e : ErrorKind} (h : lengthOf a = .error e) :
    lengthOf (m.busAnswer a) = .error (m.error e) := by
  obtain ⟨b, rfl, rfl⟩ | ⟨buf, rfl, hn, rfl⟩ := lengthOf_error h
  · rfl
  · exact lengthOf_size hn

theorem lengthOf_relabel_ok {a : BusAnswer} {v : Word} (h : lengthOf a = .ok v) : lengthOf (m.busAnswer a) = .ok v := by
  obtain ⟨buf, rfl, _, _⟩ := lengthOf_ok h
  exact h

theorem handshakeValue_relabel (v : Word) (s : State) : handshakeValue v (m.state s) = m.state (handshakeValue v s) := by
  by_cases hv : v = Config.sentinelLen
  · subst hv
    exact respond_relabel rfl { latchLen Config.sentinelLen s with sess := .ready }
  by_cases ha : s.attempt < Config.handshakeAttempts
  · have ha' : (m.state s).attempt < Config.handshakeAttempts := ha
    simp only [handshakeValue, latchLen_lenLatch, latchLen_attempt, hv, ha, ha', if_true, if_false]
    exact request_relabel _ _ { latchLen v s with attempt := s.attempt + 1 }
  · have ha' : ¬(m.state s).attempt < Config.handshakeAttempts := ha
    simp only [handshakeValue, latchLen_lenLatch, latchLen_attempt, hv, ha, ha', if_false]
    exact raiseErr_relabel (.invalidMessageLen v) (latchLen v s)

theorem deliverFrame_relabel (r : Except FrameError Event) (s : State) :
    deliverFrame r (m.state s) = m.state (deliverFrame r s) := by
  cases r with
  | ok ev => exact respond_relabel rfl s
  | error _ => exact raiseErr_relabel .sizeMismatch s

theorem receiveFrame_relabel (k : Kind) (a : BusAnswer) (s : State) :
    receiveFrame k (m.busAnswer a) (m.state s) = m.state (receiveFrame k a s) := by
  cases a with
  | busErr e => exact raiseErr_relabel (.busError e) s
  | ok buf =>
    by_cases hk : some buf.length = frameLen k
    · simp only [Relabel.busAnswer, receiveFrame, if_pos hk]
      exact deliverFrame_relabel _ (storeFrame buf { s with frameCnt := buf.length })
    · simp only [Relabel.busAnswer, receiveFrame, if_neg hk]
      exact raiseErr_relabel .sizeMismatch { s with frameCnt := buf.length }

/-! ### The instructions -/

theorem frameKind_relabel (k : Kind) (n : Nat) (s : State) : frameKind k n (m.state s) = m.outcome (frameKind k n s) := by
  unfold frameKind
  rw [Relabel.state_phase]
  cases s.phase with
  | openLen => exact congrArg _ (handshakeValue_relabel _ s)
  | readLen => exact congrArg _ (request_relabel _ _ (latchKind k (latchLen _ s)))
  | readFrame => exact onBusAnswer_relabel fun a t => congrArg _ (receiveFrame_relabel k a t)
  | idle | querySig | readSig => rfl

theorem errorKind_relabel (k : Kind) (v : Word) {e : ErrorKind} (he : m.error e = e) (s : State) :
    errorKind k v e (m.state s) = m.outcome (errorKind k v e s) := by
  unfold errorKind
  rw [Relabel.state_phase]
  cases s.phase with
  | openLen => exact congrArg _ (handshakeValue_relabel v s)
  | readLen =>
    have h := raiseErr_relabel (m := m) e (latchKind k (latchLen v s))
    rw [he] at h
    exact congrArg _ h
  | idle | querySig | readSig | readFrame => rfl

theorem runKind_relabel (k : Kind) (s : State) : runKind k (m.state s) = m.outcome (runKind k s) := by
  cases k with
  | empty | invalid => exact errorKind_relabel _ _ rfl s
  | touch0 | touch1 | touch2 | button => exact frameKind_relabel _ _ s

theorem openAnswer_relabel (a : BusAnswer) (s : State) : openAnswer (m.busAnswer a) (m.state s) = m.state (openAnswer a s) := by
  cases hl : lengthOf a with
  | error e => rw [openAnswer_error hl, openAnswer_error (lengthOf_relabel_error hl), raiseErr_relabel]
  | ok v => simp only [openAnswer, hl, lengthOf_relabel_ok hl, handshakeValue_relabel]

theorem queryAnswer_relabel (a : SigAnswer) (s : State) : queryAnswer (m.sigAnswer a) (m.state s) = m.state (queryAnswer a s) := by
  cases a with
  | line l => exact respond_relabel rfl s
  | ioErr e => exact raiseErr_relabel (.ioError e) s

theorem signalAnswer_relabel (a : SigAnswer) (s : State) :
    signalAnswer (m.sigAnswer a) (m.state s) = m.state (signalAnswer a s) := by
  match a with
  | .line .low => exact request_relabel _ _ s
  | .line .high => exact raiseErr_relabel .noDataAvailable s
  | .ioErr e => exact raiseErr_relabel (.ioError e) s

theorem lengthAnswer_relabel (a : BusAnswer) (s : State) :
    lengthAnswer (m.busAnswer a) (m.state s) = m.outcome (lengthAnswer a s) := by
  cases hl : lengthOf a with
  | error e => rw [lengthAnswer_error hl, lengthAnswer_error (lengthOf_relabel_error hl), raiseErr_relabel]; rfl
  | ok v => simp only [lengthAnswer, hl, lengthOf_relabel_ok hl, runKind_relabel]

theorem execOpen_relabel (s : State) : execOpen (m.state s) = m.outcome (execOpen s) := by
  unfold execOpen
  rw [Relabel.state_phase, Relabel.state_sess]
  cases s.phase with
  | idle => exact accept_relabel _ (fun t => request_relabel _ _ { t with attempt := 1 }) s
  | openLen => exact onBusAnswer_relabel fun a t => congrArg _ (openAnswer_relabel a t)
  | querySig | readSig | readLen | readFrame => rfl

theorem execQuery_relabel (s : State) : execQuery (m.state s) = m.outcome (execQuery s) := by
  unfold execQuery
  rw [Relabel.state_phase, Relabel.state_sess]
  cases s.phase with
  | idle => exact accept_relabel _ (request_relabel _ _) s
  | querySig => exact onSigAnswer_relabel fun a t => congrArg _ (queryAnswer_relabel a t)
  | openLen | readSig | readLen | readFrame => rfl

theorem execRead_relabel (s : State) : execRead (m.state s) = m.outcome (execRead s) := by
  unfold execRead
  rw [Relabel.state_phase, Relabel.state_sess]
  cases s.phase with
  | idle => exact accept_relabel _ (request_relabel _ _) s
  | readSig => exact onSigAnswer_relabel fun a t => congrArg _ (signalAnswer_relabel a t)
  | readLen => exact onBusAnswer_relabel lengthAnswer_relabel
  | readFrame => exact runKind_relabel s.kindLatch s
  | openLen | querySig => rfl

theorem exec_relabel (i : Instr) (s : State) : exec i (m.state s) = m.outcome (exec i s) := by
  cases i with
  | empty | invalid => exact errorKind_relabel _ _ rfl s
  | touch0 | button | touch1 | touch2 => exact frameKind_relabel _ _ s
  | openCmd => exact execOpen_relabel s
  | queryCmd => exact execQuery_relabel s
  | readCmd => exact execRead_relabel s

/-! ### The step -/

theorem fetchCommand_relabel (c : BitVec 2) (s : State) : fetchCommand c (m.state s) = m.fetched (fetchCommand c s) := by
  unfold fetchCommand
  cases decode (.command c) with
  | error _ => rfl
  | ok i =>
    rw [Relabel.state_phase, Relabel.state_busy]
    by_cases h : s.phase = .idle ∧ s.busy = false
    · simp only [h, and_self, if_true]; rfl
    · simp only [h, if_false]; rfl

/-- The fetch looks into an answer only for the two bytes of a length prefix. -/
theorem fetchPrefix_relabel (s : State) : fetchPrefix (m.state s) = m.fetched (fetchPrefix s) := by
  unfold fetchPrefix
  rw [Relabel.state_inbox]
  cases s.inbox with
  | nil => rfl
  | cons i rest =>
    match i with
    | .bus (.ok buf) =>
      by_cases hn : buf.length = Config.lenPrefixBytes
      · obtain ⟨b0, b1, rfl⟩ := length_eq_two hn; rfl
      · simp only [List.map_cons, Relabel.input, if_neg hn]; rfl
    | .bus (.busErr _) | .sig (.line _) | .sig (.ioErr _) | .command _ | .reset => rfl

theorem fetchRest_relabel (s : State) : fetchRest (m.state s) = m.fetched (fetchRest s) := by
  unfold fetchRest
  rw [Relabel.state_phase, Relabel.state_kindLatch]
  cases s.phase with
  | idle => simp [Relabel.fetched, Relabel.state]
  | readLen => exact fetchPrefix_relabel s
  | openLen | querySig | readSig | readFrame => rfl

theorem fetch_relabel (s : State) : fetch (m.state s) = m.fetched (fetch s) := by
  unfold fetch
  rw [Relabel.state_inbox]
  cases s.inbox with
  | nil => exact fetchRest_relabel s
  | cons i rest =>
    cases i with
    | reset => rfl
    | command c => exact fetchCommand_relabel c { s with inbox := rest }
    | bus a => rw [List.map_cons, Relabel.input_bus]; exact fetchRest_relabel s
    | sig a => rw [List.map_cons, Relabel.input_sig]; exact fetchRest_relabel s

end ErrorTokens

/-- Settles O56: the fetch commutes with the renaming, and so does the instruction it gives. -/
theorem errorTokensPassThrough : Obligations.ErrorTokensPassThrough := by
  intro m s
  unfold step
  rw [fetch_relabel]
  cases fetch s with
  | run i t => exact exec_relabel i t
  | settle t => rfl
  | refuse r => rfl

end Sys2Proof.Machine
